-- ==== Sys2Proof/Word.lean ====
section
/-! DEFINITION. The word types of the UFE: bytes, 16-bit quantities, command identifiers, buffer indices, frames
(spec/00_scope.md R13, spec/10_state.md R20, spec/20_memory.md R52). -/

namespace Sys2Proof

/-- A byte, 0 to 255 (R13). -/
abbrev Byte := BitVec 8

/-- A u16, 0 to 65535 (R13). -/
abbrev U16 := BitVec 16

/-- The 5-bit command identifier `cmd_id` (R11, R30). -/
abbrev CmdId := BitVec 5

/-- The 21-bit command word `W[20:0]` (R72). -/
abbrev CmdWord := BitVec 21

/-- `FRAME_LEN`, bytes in a frame (R8, R70). The byte indices of every rule are those of a ten-byte frame, so it is
a constant here and not a field of the configuration. -/
abbrev frameLen : Nat := 10

/-- Ten bytes, index 0 the first on the wire (R14, R52). -/
abbrev Frame := Vector Byte frameLen

end Sys2Proof
end

