-- ==== Sys2Proof/Machine/Bits.lean ====
section
/-! DEFINITION. The bit-field, byte-order and checksum arithmetic (spec/00_scope.md R13, R15, spec/20_memory.md R50,
spec/40_frame_encoder.md R101, R102), each in the integers and narrowed once at the end. -/

namespace Sys2Proof.Machine

/-- `v[15:8] = v div 256` (R13). -/
def hi (v : U16) : Byte := BitVec.ofNat 8 (v.toNat / 256)

/-- `v[7:0] = v mod 256` (R13). -/
def lo (v : U16) : Byte := BitVec.ofNat 8 (v.toNat % 256)

/-- `cat(h, l) = 256*h + l` (R13): big-endian, the byte at the lower index is the more significant (R50). -/
def cat (h l : Byte) : U16 := BitVec.ofNat 16 (256 * h.toNat + l.toNat)

/-- `neg16(s) = (65536 - s) mod 65536` (R13); used for `s` at most 1530 (R102). -/
def neg16 (s : Nat) : U16 := BitVec.ofNat 16 ((65536 - s) % 65536)

/-- The sum of the six body bytes, each zero-extended (R101, R102); at most 1530, so it never wraps. -/
def bodySum (version length command ackFlag argHi argLo : Byte) : Nat :=
  version.toNat + length.toNat + command.toNat + ackFlag.toNat + argHi.toNat + argLo.toNat

/-- `Sum6(B)` (R15): frame bytes 1 to 6. -/
def sum6 (b : Frame) : Nat := bodySum b[1] b[2] b[3] b[4] b[5] b[6]

/-- A byte sequence of any length as ten bytes, where it has that length (R150, R151). -/
def frameOfBytes (bs : List Byte) : Option Frame :=
  if h : bs.length = frameLen then some ⟨bs.toArray, by simpa using h⟩ else none

/-- The command word of R72: `W[20:16] = cmd_id`, `W[15:0] = cmd_arg`. -/
def cmdWord (id : CmdId) (a : U16) : CmdWord := BitVec.ofNat 21 (65536 * id.toNat + a.toNat)

/-- `W[20:16]` (R72). -/
def wordId (w : CmdWord) : CmdId := BitVec.ofNat 5 (w.toNat / 65536)

/-- `W[15:0]` (R72). -/
def wordArg (w : CmdWord) : U16 := BitVec.ofNat 16 (w.toNat % 65536)

/-- Byte `i` of the 80-bit word `F[79:0]`, byte 0 the most significant: `F[79-8i : 72-8i]` (R71). -/
def frameByte (w i : Nat) : Byte := BitVec.ofNat 8 (w / 2 ^ (72 - 8 * i))

/-- The ten bytes of the 80-bit word `F[79:0]` (R71). -/
def frameOfWord (w : Nat) : Frame :=
  #v[frameByte w 0, frameByte w 1, frameByte w 2, frameByte w 3, frameByte w 4, frameByte w 5, frameByte w 6,
    frameByte w 7, frameByte w 8, frameByte w 9]

end Sys2Proof.Machine
end

