-- ==== Sys2Proof/Syntax.lean ====
section
/-! DEFINITION. The instructions: one constructor of `Instr` for each of the 35 rows of spec/opcode_table.json, the 24
commands of spec/00_scope.md R12 and the 11 reply frames of spec/42_frame_decoder.md R156. -/

namespace Sys2Proof

/-- The 23 transmitting commands (R11, R12), in the order of their `CMD_ID`, 0 to 22. -/
inductive TxCmd where
  | play | playIndex | next | previous | setVolume | setEq | setDevice | sleep | reset | pause | stop
  | singleLoop | singlePlay | dacEnable | randomPlay
  | getState | getVolume | getUsbCount | getSdCount | getFlashCount | getCurUsb | getCurSd | getCurFlash
  deriving DecidableEq, Repr

/-- The fields of a received frame that its row of the table leaves open (R71, letters r, l, k, v, c): the bytes
`version`, `length`, `ack_flag`, and the 16-bit value and checksum. The checksum is an operand because the row does
not fix it: a frame whose checksum is wrong is still this row's frame, and ends in `PROTO_CHECKSUM` (R154). -/
structure ReplyFields where
  version : Byte
  length : Byte
  ackFlag : Byte
  value : U16
  checksum : U16
  deriving DecidableEq, Repr

/-- One constructor per row of spec/opcode_table.json. A command carries the 16 bits of `cmd_arg` as presented, also
where the command ignores them, since the register `ARG` latches them (R25, R184). -/
inductive Instr where
  | play (a : U16)
  | playIndex (a : U16)
  | next (a : U16)
  | previous (a : U16)
  | setVolume (a : U16)
  | setEq (a : U16)
  | setDevice (a : U16)
  | sleep (a : U16)
  | reset (a : U16)
  | pause (a : U16)
  | stop (a : U16)
  | singleLoop (a : U16)
  | singlePlay (a : U16)
  | dacEnable (a : U16)
  | randomPlay (a : U16)
  | getState (a : U16)
  | getVolume (a : U16)
  | getUsbCount (a : U16)
  | getSdCount (a : U16)
  | getFlashCount (a : U16)
  | getCurUsb (a : U16)
  | getCurSd (a : U16)
  | getCurFlash (a : U16)
  | setReplyMode (a : U16)
  | replyAck (r : ReplyFields)
  | replyPeriphError (r : ReplyFields)
  | replyMediaPresent (r : ReplyFields)
  | replyPlayState (r : ReplyFields)
  | replyVolume (r : ReplyFields)
  | replyCountUsb (r : ReplyFields)
  | replyCountSd (r : ReplyFields)
  | replyCountFlash (r : ReplyFields)
  | replyCurUsb (r : ReplyFields)
  | replyCurSd (r : ReplyFields)
  | replyCurFlash (r : ReplyFields)
  deriving DecidableEq, Repr

end Sys2Proof
end

