-- ==== Sys2Proof/Config.lean ====
section
/-! DEFINITION. The configuration record `CFG` (spec/00_scope.md R8), what makes it well formed (R10), and the values
that stay free: the OPEN parameters and every value the spec calls unspecified. The values this hardware takes for the
other parameters stand in Sys2Proof/Machine/Params.lean. -/

namespace Sys2Proof

/-- `CFG` (R8): constant for the life of the block, not part of its state (R28). -/
structure Cfg where
  /-- `START`, frame byte 0. -/
  start : Byte
  /-- `VERSION`, frame byte 1. -/
  version : Byte
  /-- `LEN`, frame byte 2; a constant, never a count (R87, conflict C1). -/
  len : Byte
  /-- `END`, frame byte 9. -/
  endMark : Byte
  ackFalse : Byte
  ackTrue : Byte
  volMax : Nat
  eqValid : U16 → Bool
  devValid : U16 → Bool
  /-- `OPC`, defined on exactly the transmitting commands (R10, R12). -/
  opc : TxCmd → Byte
  ropcAck : Byte
  ropcError : Byte
  ropcMedia : Byte
  tTicks : Nat

/-- The eleven reply command bytes of R10, in the order of R156. -/
def Cfg.replyBytes (c : Cfg) : List Byte :=
  [c.ropcAck, c.ropcError, c.ropcMedia, c.opc .getState, c.opc .getVolume, c.opc .getUsbCount, c.opc .getSdCount,
    c.opc .getFlashCount, c.opc .getCurUsb, c.opc .getCurSd, c.opc .getCurFlash]

/-- `WF_CFG` (R10). `FRAME_LEN = 10` and `OPC` total hold by the types. -/
structure Cfg.WF (c : Cfg) : Prop where
  markers : c.start ≠ c.endMark
  ticks : 1 ≤ c.tTicks
  replies : c.replyBytes.Nodup

namespace Config

/-- `T_TICKS` less one; `T_TICKS` is OPEN and at least 1 (R8, D16). DESIGN CHOICE (log 4), safe: nothing constrains it. -/
opaque tTicksPred : Nat

/-- `DEV_VALID`, OPEN (R8, D10). DESIGN CHOICE (log 9), safe: nothing constrains it. -/
opaque devValid : U16 → Bool

/-- `OPC_SINGLE_PLAY`, OPEN (R12, D13). DESIGN CHOICE (log 10), safe: nothing constrains it. -/
opaque opcSinglePlay : Byte

/-- The byte that an entry of a buffer holds after a reset: unspecified, "each byte is a draw" (R36). The first argument
is the clock edge of the reset, the second the entry: 0 to 9 `TXBUF`, 10 to 19 `RXBUF`. DESIGN CHOICE (log 3). -/
opaque unspecifiedByte : Nat → Nat → Byte

/-- What the four result pins show while `res_valid = 0`: unspecified (R31). The argument is the clock. DESIGN CHOICE (log 12). -/
opaque unspecifiedResultPins : Nat → BitVec 4 × BitVec 4 × Byte × U16

/-- What `tx_data` shows while `tx_valid = 0`: unspecified (R32). The argument is the clock. DESIGN CHOICE (log 12). -/
opaque unspecifiedTxData : Nat → Byte

end Config

end Sys2Proof
end

