-- ==== Sys2Proof/Machine/Params.lean ====
section
/-! DEFINITION. The value this hardware takes for each parameter of `CFG` (spec/00_scope.md R8, R12). -/

namespace Sys2Proof.Machine

/-- The `OPC` column of R12. Only `SET_VOLUME` is from the source; every other fixed value is the default the spec takes
from general knowledge (G1). PRESUMED (log 11), unsafe: the peripheral may use another byte. `SINGLE_PLAY` is OPEN
(log 10). -/
def opc : TxCmd → Byte
  | .play => 0x0D
  | .playIndex => 0x03
  | .next => 0x01
  | .previous => 0x02
  | .setVolume => 0x06
  | .setEq => 0x07
  | .setDevice => 0x09
  | .sleep => 0x0A
  | .reset => 0x0C
  | .pause => 0x0E
  | .stop => 0x16
  | .singleLoop => 0x19
  | .singlePlay => Config.opcSinglePlay
  | .dacEnable => 0x1A
  | .randomPlay => 0x18
  | .getState => 0x42
  | .getVolume => 0x43
  | .getUsbCount => 0x47
  | .getSdCount => 0x48
  | .getFlashCount => 0x49
  | .getCurUsb => 0x4B
  | .getCurSd => 0x4C
  | .getCurFlash => 0x4D

/-- `EQ_VALID`, the value of R8: `a <= 5`. PRESUMED (log 11), unsafe: G3. -/
def eqValid (a : U16) : Bool := a.toNat ≤ 5

/-- The configuration of this hardware: the column "value" of R8, with the free constants of `Config` for what R8 leaves
OPEN. `ackTrue`, `ropcAck`, `ropcError` and `ropcMedia` are from general knowledge (G2, G6). PRESUMED (log 11), unsafe. -/
def cfg : Cfg where
  start := 0x7E
  version := 0xFF
  len := 0x06
  endMark := 0xEF
  ackFalse := 0x00
  ackTrue := 0x01
  volMax := 30
  eqValid := eqValid
  devValid := Config.devValid
  opc := opc
  ropcAck := 0x41
  ropcError := 0x40
  ropcMedia := 0x3F
  tTicks := Config.tTicksPred + 1

end Sys2Proof.Machine
end

