-- ==== Sys2Proof/Machine/Operands.lean ====
section
/-! DEFINITION. The operands: which command an identifier names, which commands carry their operand into the frame, which
operands are legal, how an operand is read (spec/30_encoding.md R72 to R75, spec/43_command_mapper.md R184, R185). -/

namespace Sys2Proof.Machine

/-- What a `cmd_id` names: a transmitting command (0 to 22), `SET_REPLY_MODE` (23), nothing (24 to 31) (R11, R12, R84). -/
inductive CmdClass where
  | transmit (t : TxCmd)
  | replyMode
  | reserved
  deriving DecidableEq, Repr

/-- The `CMD_ID` column of R12: all 32 values are assigned, so the decode is total (R72). -/
def classOfId (id : CmdId) : CmdClass :=
  match id.toNat with
  | 0 => .transmit .play
  | 1 => .transmit .playIndex
  | 2 => .transmit .next
  | 3 => .transmit .previous
  | 4 => .transmit .setVolume
  | 5 => .transmit .setEq
  | 6 => .transmit .setDevice
  | 7 => .transmit .sleep
  | 8 => .transmit .reset
  | 9 => .transmit .pause
  | 10 => .transmit .stop
  | 11 => .transmit .singleLoop
  | 12 => .transmit .singlePlay
  | 13 => .transmit .dacEnable
  | 14 => .transmit .randomPlay
  | 15 => .transmit .getState
  | 16 => .transmit .getVolume
  | 17 => .transmit .getUsbCount
  | 18 => .transmit .getSdCount
  | 19 => .transmit .getFlashCount
  | 20 => .transmit .getCurUsb
  | 21 => .transmit .getCurSd
  | 22 => .transmit .getCurFlash
  | 23 => .replyMode
  | _ => .reserved

/-- The `CMD_ID` of a transmitting command (R12). -/
def idOfCmd : TxCmd → CmdId
  | .play => 0
  | .playIndex => 1
  | .next => 2
  | .previous => 3
  | .setVolume => 4
  | .setEq => 5
  | .setDevice => 6
  | .sleep => 7
  | .reset => 8
  | .pause => 9
  | .stop => 10
  | .singleLoop => 11
  | .singlePlay => 12
  | .dacEnable => 13
  | .randomPlay => 14
  | .getState => 15
  | .getVolume => 16
  | .getUsbCount => 17
  | .getSdCount => 18
  | .getFlashCount => 19
  | .getCurUsb => 20
  | .getCurSd => 21
  | .getCurFlash => 22

/-- `Carries(id)` (R184): the seven argument-carrying transmitting commands. -/
def carries : TxCmd → Bool
  | .playIndex | .setVolume | .setEq | .setDevice | .singleLoop | .singlePlay | .dacEnable => true
  | .play | .next | .previous | .sleep | .reset | .pause | .stop | .randomPlay => false
  | .getState | .getVolume | .getUsbCount | .getSdCount | .getFlashCount | .getCurUsb | .getCurSd
  | .getCurFlash => false

/-- `arg = if Carries(id) then a else 0x0000` (R180, R184). -/
def frameArg (t : TxCmd) (a : U16) : U16 := if carries t then a else 0

/-- `ArgLegal(id, a)` (R185), on the full unsigned 16 bits. -/
def argLegal (c : Cfg) (t : TxCmd) (a : U16) : Bool :=
  match t with
  | .setVolume => a.toNat ≤ c.volMax
  | .setEq => c.eqValid a
  | .setDevice => c.devValid a
  | .play | .playIndex | .next | .previous | .sleep | .reset | .pause | .stop | .singleLoop | .singlePlay
  | .dacEnable | .randomPlay => true
  | .getState | .getVolume | .getUsbCount | .getSdCount | .getFlashCount | .getCurUsb | .getCurSd
  | .getCurFlash => true

/-- `cmd_arg` of `SET_REPLY_MODE` read as a Boolean, `cmd_arg != 0` (R72, R203). -/
def boolArg (a : U16) : Bool := a ≠ 0

/-- The `ack_flag` byte of a built frame: `ACK_TRUE` or `ACK_FALSE` (R74). -/
def ackByte (c : Cfg) (ack : Bool) : Byte := if ack then c.ackTrue else c.ackFalse

end Sys2Proof.Machine
end

