-- ==== Sys2Proof/WellFormed.lean ====
section
/-! DEFINITION. Well-formed instructions. Every operand of a command is well formed (spec/30_encoding.md R72). A reply
frame is well formed when its checksum is valid for its body (spec/40_frame_encoder.md R103); one that is not still
executes, as `PROTO_CHECKSUM` (spec/42_frame_decoder.md R154). -/

namespace Sys2Proof

open Machine

/-- The checksum check of R103, R154 on a reply with command byte `cmd`:
`cat(B[7], B[8]) = neg16(Sum6(B))`. -/
def ReplyFields.checksumValid (cmd : Byte) (r : ReplyFields) : Bool :=
  r.checksum = neg16 (bodySum r.version r.length cmd r.ackFlag (hi r.value) (lo r.value))

/-- Every field of the instruction is one the spec admits in configuration `c` (R8). -/
def Instr.wellFormedIn (c : Cfg) : Instr → Bool
  | .play _ | .playIndex _ | .next _ | .previous _ | .setVolume _ | .setEq _ | .setDevice _ | .sleep _ | .reset _
  | .pause _ | .stop _ | .singleLoop _ | .singlePlay _ | .dacEnable _ | .randomPlay _ => true
  | .getState _ | .getVolume _ | .getUsbCount _ | .getSdCount _ | .getFlashCount _ | .getCurUsb _ | .getCurSd _
  | .getCurFlash _ => true
  | .setReplyMode _ => true
  | .replyAck r => r.checksumValid c.ropcAck
  | .replyPeriphError r => r.checksumValid c.ropcError
  | .replyMediaPresent r => r.checksumValid c.ropcMedia
  | .replyPlayState r => r.checksumValid (c.opc .getState)
  | .replyVolume r => r.checksumValid (c.opc .getVolume)
  | .replyCountUsb r => r.checksumValid (c.opc .getUsbCount)
  | .replyCountSd r => r.checksumValid (c.opc .getSdCount)
  | .replyCountFlash r => r.checksumValid (c.opc .getFlashCount)
  | .replyCurUsb r => r.checksumValid (c.opc .getCurUsb)
  | .replyCurSd r => r.checksumValid (c.opc .getCurSd)
  | .replyCurFlash r => r.checksumValid (c.opc .getCurFlash)

/-- Every field of the instruction is one the spec admits on this hardware. -/
def Instr.wellFormed (i : Instr) : Bool := i.wellFormedIn cfg

end Sys2Proof
end

