-- ==== Sys2Proof/Decode.lean ====
section
/-! DEFINITION. The decoder and, after it, the encoder (spec/30_encoding.md R71, R72, R76; spec/42_frame_decoder.md R156).
The block decodes two things: the 21-bit command word at the command port, and the ten bytes of a received frame. At the
end, the reading of an opcode-table row. -/

namespace Sys2Proof

open Machine

/-- The encoded form of an instruction: a command is its command word (R72), a reply its bytes in wire order (R71). -/
inductive Code where
  | commandWord (w : CmdWord)
  | replyBytes (bs : List Byte)
  deriving DecidableEq, Repr

/-- Why nothing of the table is decoded. None of these stops the machine: the step gives each the effect the spec gives
it. -/
inductive DecodeError where
  /-- `cmd_id` 24 to 31 (R84): the step ends the command with `INVALID_ARGUMENT`. -/
  | reservedCmdId (id : CmdId)
  /-- Not exactly ten bytes (R151). -/
  | badLength
  /-- Byte 0 is not `START` (R152). -/
  | badStartMarker
  /-- Byte 9 is not `END` (R153). -/
  | badEndMarker
  /-- A frame whose command byte no row of the table has: kind `OTHER` (R86, R156). -/
  | otherCommandByte (b : Byte)
  deriving DecidableEq, Repr

/-- A command word to its command: a comparison of `W[20:16]` with the `CMD_ID` column of R12 (R72). -/
def decodeCommand (w : CmdWord) : Except DecodeError Instr :=
  let a := wordArg w
  match classOfId (wordId w) with
  | .transmit .play => .ok (.play a)
  | .transmit .playIndex => .ok (.playIndex a)
  | .transmit .next => .ok (.next a)
  | .transmit .previous => .ok (.previous a)
  | .transmit .setVolume => .ok (.setVolume a)
  | .transmit .setEq => .ok (.setEq a)
  | .transmit .setDevice => .ok (.setDevice a)
  | .transmit .sleep => .ok (.sleep a)
  | .transmit .reset => .ok (.reset a)
  | .transmit .pause => .ok (.pause a)
  | .transmit .stop => .ok (.stop a)
  | .transmit .singleLoop => .ok (.singleLoop a)
  | .transmit .singlePlay => .ok (.singlePlay a)
  | .transmit .dacEnable => .ok (.dacEnable a)
  | .transmit .randomPlay => .ok (.randomPlay a)
  | .transmit .getState => .ok (.getState a)
  | .transmit .getVolume => .ok (.getVolume a)
  | .transmit .getUsbCount => .ok (.getUsbCount a)
  | .transmit .getSdCount => .ok (.getSdCount a)
  | .transmit .getFlashCount => .ok (.getFlashCount a)
  | .transmit .getCurUsb => .ok (.getCurUsb a)
  | .transmit .getCurSd => .ok (.getCurSd a)
  | .transmit .getCurFlash => .ok (.getCurFlash a)
  | .replyMode => .ok (.setReplyMode a)
  | .reserved => .error (.reservedCmdId (wordId w))

/-- The row of the reply map that a command byte selects, first match wins (R156, R76). -/
def decodeReplyByte (c : Cfg) (cmd : Byte) (r : ReplyFields) : Except DecodeError Instr :=
  if cmd = c.ropcAck then .ok (.replyAck r)
  else if cmd = c.ropcError then .ok (.replyPeriphError r)
  else if cmd = c.ropcMedia then .ok (.replyMediaPresent r)
  else if cmd = c.opc .getState then .ok (.replyPlayState r)
  else if cmd = c.opc .getVolume then .ok (.replyVolume r)
  else if cmd = c.opc .getUsbCount then .ok (.replyCountUsb r)
  else if cmd = c.opc .getSdCount then .ok (.replyCountSd r)
  else if cmd = c.opc .getFlashCount then .ok (.replyCountFlash r)
  else if cmd = c.opc .getCurUsb then .ok (.replyCurUsb r)
  else if cmd = c.opc .getCurSd then .ok (.replyCurSd r)
  else if cmd = c.opc .getCurFlash then .ok (.replyCurFlash r)
  else .error (.otherCommandByte cmd)

/-- Received bytes to a reply row: the table's masks fix the markers and the command byte (R71, R76), every other byte is
a field. The checksum is not looked at here: it is an operand, judged by the meaning (R154). -/
def decodeReply (c : Cfg) (bs : List Byte) : Except DecodeError Instr :=
  match frameOfBytes bs with
  | none => .error .badLength
  | some b =>
    if b[0] ≠ c.start then .error .badStartMarker
    else if b[9] ≠ c.endMark then .error .badEndMarker
    else decodeReplyByte c b[3] ⟨b[1], b[2], b[4], cat b[5] b[6], cat b[7] b[8]⟩

/-- The decoder in configuration `c` (R8), total on every code. -/
def decodeIn (c : Cfg) : Code → Except DecodeError Instr
  | .commandWord w => decodeCommand w
  | .replyBytes bs => decodeReply c bs

/-- The decoder of this hardware. -/
def decode (x : Code) : Except DecodeError Instr := decodeIn cfg x

/-- The frame of a reply row with command byte `cmd` (R71). -/
def replyFrame (c : Cfg) (cmd : Byte) (r : ReplyFields) : Frame :=
  #v[c.start, r.version, r.length, cmd, r.ackFlag, hi r.value, lo r.value, hi r.checksum, lo r.checksum, c.endMark]

/-- The code of a reply row with command byte `cmd`. -/
def encodeReply (c : Cfg) (cmd : Byte) (r : ReplyFields) : Code := .replyBytes (replyFrame c cmd r).toList

/-- The encoder in configuration `c` (R8): the command word of R72 with the `CMD_ID` of R12, or the reply frame of R71 with the command byte of
R156. -/
def encodeIn (c : Cfg) : Instr → Code
  | .play a => .commandWord (cmdWord 0 a)
  | .playIndex a => .commandWord (cmdWord 1 a)
  | .next a => .commandWord (cmdWord 2 a)
  | .previous a => .commandWord (cmdWord 3 a)
  | .setVolume a => .commandWord (cmdWord 4 a)
  | .setEq a => .commandWord (cmdWord 5 a)
  | .setDevice a => .commandWord (cmdWord 6 a)
  | .sleep a => .commandWord (cmdWord 7 a)
  | .reset a => .commandWord (cmdWord 8 a)
  | .pause a => .commandWord (cmdWord 9 a)
  | .stop a => .commandWord (cmdWord 10 a)
  | .singleLoop a => .commandWord (cmdWord 11 a)
  | .singlePlay a => .commandWord (cmdWord 12 a)
  | .dacEnable a => .commandWord (cmdWord 13 a)
  | .randomPlay a => .commandWord (cmdWord 14 a)
  | .getState a => .commandWord (cmdWord 15 a)
  | .getVolume a => .commandWord (cmdWord 16 a)
  | .getUsbCount a => .commandWord (cmdWord 17 a)
  | .getSdCount a => .commandWord (cmdWord 18 a)
  | .getFlashCount a => .commandWord (cmdWord 19 a)
  | .getCurUsb a => .commandWord (cmdWord 20 a)
  | .getCurSd a => .commandWord (cmdWord 21 a)
  | .getCurFlash a => .commandWord (cmdWord 22 a)
  | .setReplyMode a => .commandWord (cmdWord 23 a)
  | .replyAck r => encodeReply c c.ropcAck r
  | .replyPeriphError r => encodeReply c c.ropcError r
  | .replyMediaPresent r => encodeReply c c.ropcMedia r
  | .replyPlayState r => encodeReply c (c.opc .getState) r
  | .replyVolume r => encodeReply c (c.opc .getVolume) r
  | .replyCountUsb r => encodeReply c (c.opc .getUsbCount) r
  | .replyCountSd r => encodeReply c (c.opc .getSdCount) r
  | .replyCountFlash r => encodeReply c (c.opc .getFlashCount) r
  | .replyCurUsb r => encodeReply c (c.opc .getCurUsb) r
  | .replyCurSd r => encodeReply c (c.opc .getCurSd) r
  | .replyCurFlash r => encodeReply c (c.opc .getCurFlash) r

/-- The encoder of this hardware. -/
def encode (i : Instr) : Code := encodeIn cfg i

/-- The 22 command rows whose opcode byte the table gives, in the table's order; `SINGLE_PLAY`'s is OPEN (R76). -/
def knownOpcodeCmds : List TxCmd :=
  [.play, .playIndex, .next, .previous, .setVolume, .setEq, .setDevice, .sleep, .reset, .pause, .stop, .singleLoop,
    .dacEnable, .randomPlay, .getState, .getVolume, .getUsbCount, .getSdCount, .getFlashCount, .getCurUsb, .getCurSd,
    .getCurFlash]

/-- The bits that the mask of a `FRAME10` row fixes besides the opcode: `start`, `version`, `length`, the upper seven bits
of `ack_flag`, `end`; and for an argumentless command the sixteen `arg` bits, which are 0 (R71). -/
def commandFrameMatches (c : Cfg) (argBits : Bool) (f : Frame) : Bool :=
  f[0] = c.start && f[1] = c.version && f[2] = c.len && f[4].toNat / 2 = 0 && f[9] = c.endMark
    && (argBits || cat f[5] f[6] = 0)

/-- The instruction of a `FRAME10` row: the command whose frame the row shows, with the frame's `arg`. The letters `a` and
`c` are functions of the state and of the other bits (R71) and are not read. This reading is for the opcode table alone:
the block decodes no command frame (R76). DESIGN CHOICE (log 14), safe: the step never calls it. -/
def decodeCommandFrame (c : Cfg) (f : Frame) : Option Instr :=
  (knownOpcodeCmds.find? fun t => c.opc t = f[3] && commandFrameMatches c (carries t) f).bind fun t =>
    (decodeCommand (cmdWord (idOfCmd t) (cat f[5] f[6]))).toOption

/-- The instruction of an 80-bit row: a command row with a known opcode, else a reply row, else `SINGLE_PLAY`, whose opcode
byte the table leaves open (letter `p`). DESIGN CHOICE (log 14), safe. -/
def decodeTableFrame (c : Cfg) (f : Frame) : Option Instr :=
  match decodeCommandFrame c f, decodeReply c f.toList with
  | some i, _ => some i
  | none, .ok i => some i
  | none, .error _ => if commandFrameMatches c true f then some (.singlePlay (cat f[5] f[6])) else none

/-- The instruction the decoder reads from the bits `w` of a row of the opcode table: at most 24 bits are a command word
(R72; its mask leaves bits 23:21 free), more are the 80-bit frame of R71, byte 0 in bits 79:72. -/
def decodeTableWord (nbits w : Nat) : Option Instr :=
  if nbits ≤ 24 then (decode (.commandWord (BitVec.ofNat 21 w))).toOption else decodeTableFrame cfg (frameOfWord w)

end Sys2Proof
end

