-- ==== Sys2Proof/Machine/State.lean ====
section
/-! DEFINITION. The state of the block (spec/10_state.md R20 to R36), its result register, its input pins for one clock
cycle, the reasons a step can stop, and the state after reset. -/

namespace Sys2Proof.Machine

/-- `PHASE` (R20, R24). Code 3 is unused and is no value here. -/
inductive Phase where
  | idle | send | recv
  deriving DecidableEq, Repr

/-- The `status` of a result (R27, R231). -/
inductive Status where
  | okVoid | okReply | invalidArgument | linkError | timeoutError
  | protoBadLength | protoBadStart | protoBadEnd | protoChecksum
  deriving DecidableEq, Repr

/-- The `kind` of a result (R27, R156). -/
inductive Kind where
  | none | ack | playState | volume | mediaPresent | countUsb | countSd | countFlash
  | curUsb | curSd | curFlash | periphError | other
  deriving DecidableEq, Repr

/-- The record in `RES` (R27). -/
structure Result where
  status : Status
  kind : Kind
  cmd : Byte
  value : U16
  deriving DecidableEq, Repr

/-- Every input pin of the block in one clock cycle (R30, R32, R33). The environment agents drive them (R7). -/
structure InPins where
  rst : Bool := false
  cmdValid : Bool := false
  cmdId : CmdId := 0
  cmdArg : U16 := 0
  txReady : Bool := false
  rxValid : Bool := false
  rxData : Byte := 0
  rxFault : Bool := false
  tick : Bool := false
  deriving DecidableEq, Repr

/-- The tuple `S` of R20, and three fields of the model's own: the transmit trace `wire` (R122; log 5), the input cycles
to come `inputs` (log 2), and the clock that free values are indexed by (log 3). -/
structure State where
  /-- `IS_REPLY` (R21). -/
  isReply : Bool
  /-- `TXBUF[0..9]` (R22). -/
  txbuf : Frame
  /-- `RXBUF[0..9]` (R23). -/
  rxbuf : Frame
  /-- `PHASE` (R24). -/
  phase : Phase
  /-- `TXIDX` (R24). -/
  txidx : BitVec 4
  /-- `RXIDX` (R24). -/
  rxidx : BitVec 4
  /-- `CMD_ID` (R25). -/
  cmdId : CmdId
  /-- `ARG` (R25). -/
  arg : U16
  /-- `TO_CNT` (R26); its width is that of the OPEN `T_TICKS`, so a `Nat` (log 4). -/
  toCnt : Nat
  /-- `RES` (R27). -/
  res : Option Result
  /-- The bytes the channel has accepted, oldest first (R122). -/
  wire : List Byte
  /-- The input cycles to come. -/
  inputs : List InPins
  /-- Clock edges since `State.reset`. -/
  clock : Nat
  deriving DecidableEq, Repr

/-- The one way a step of this model stops with a fault. -/
inductive Fault where
  /-- A buffer access at an index above 9, which no buffer has (R15, R52). Raised by the transmit step and the receive
  step in a state with `TXIDX` or `RXIDX` above 9, which no run from reset reaches (R24, R39). Safe (log 8). -/
  | noSuchIndex (index : Nat)
  deriving DecidableEq, Repr

/-- The reasons an instruction has no meaning. -/
inductive Refusal where
  /-- An instruction this model gives no meaning. No arm of `exec` raises it. Safe. -/
  | notModelled (mnemonic : String)
  deriving DecidableEq, Repr

/-- A buffer whose ten bytes are unspecified after the reset at clock edge `n` (R36); `base` is 0 for `TXBUF`, 10 for
`RXBUF`. -/
def unspecifiedBuffer (n base : Nat) : Frame :=
  #v[Config.unspecifiedByte n base, Config.unspecifiedByte n (base + 1), Config.unspecifiedByte n (base + 2),
    Config.unspecifiedByte n (base + 3), Config.unspecifiedByte n (base + 4), Config.unspecifiedByte n (base + 5),
    Config.unspecifiedByte n (base + 6), Config.unspecifiedByte n (base + 7), Config.unspecifiedByte n (base + 8),
    Config.unspecifiedByte n (base + 9)]

/-- The reset state of R36 and R260 at clock edge `n`; what the environment has seen (`wire`) and will do (`inputs`) is
not the block's to reset. -/
def State.atReset (n : Nat) (wire : List Byte) (inputs : List InPins) : State where
  isReply := false
  txbuf := unspecifiedBuffer n 0
  rxbuf := unspecifiedBuffer n 10
  phase := .idle
  txidx := 0
  rxidx := 0
  cmdId := 0
  arg := 0
  toCnt := 0
  res := none
  wire := wire
  inputs := inputs
  clock := n

/-- The machine right after reset (R36): idle, nothing on the wire, no input cycle placed. -/
def State.reset : State := State.atReset 0 [] []

end Sys2Proof.Machine
end

