-- ==== Sys2Proof/Machine/Ops.lean ====
section
/-! DEFINITION. The named operations over buffers and registers: `MemRead` and `MemWrite` (spec/00_scope.md R15), the
operand latch, the ways a command completes, `raise`, which is this block's one failure mechanism in place of trap entry
(spec/60_exceptions.md R230; R240: there is no return from it), and reset. -/

namespace Sys2Proof.Machine

/-- The outcome of one step. -/
abbrev StepOutcome := Host.Outcome State Fault Refusal

/-- `MemRead(B, i, 1)` (R15): the byte at index `i`; nothing where no buffer has that index. -/
def memRead (b : Frame) (i : Nat) : Option Byte := b[i]?

/-- `MemRead(B, i, 2)` (R15, R50): `cat(B[i], B[i+1])`, defined for `i + 2 <= 10`. -/
def memRead2 (b : Frame) (i : Nat) : Option U16 :=
  match memRead b i, memRead b (i + 1) with
  | some h, some l => some (cat h l)
  | _, _ => none

/-- `MemWrite(B, i, 1, v)` (R15): defined for `i <= 9`. -/
def memWrite (b : Frame) (i : Nat) (v : Byte) : Option Frame :=
  if h : i < frameLen then some (b.set i v) else none

/-- `MemWrite(B, i, 2, v)` (R15, R50): `B[i] <- v[15:8]`, `B[i+1] <- v[7:0]`, defined for `i + 2 <= 10`. -/
def memWrite2 (b : Frame) (i : Nat) (v : U16) : Option Frame :=
  (memWrite b i (hi v)).bind fun b => memWrite b (i + 1) (lo v)

/-- A buffer as cells, index and byte: the ten indices of R52, rising (log 8). -/
def cells (b : Frame) : List Host.Cell := (List.range frameLen).zip b.toList

/-- The form of a buffer's cells: exactly the indices 0 to 9, each once, in rising order (log 8). -/
def cellsWf (m : List Host.Cell) : Bool := m.map Prod.fst = List.range frameLen

/-- The operand latch at acceptance: `CMD_ID <- id; ARG <- a; RES <- None` (R25, R180). -/
def latch (id : CmdId) (a : U16) (s : State) : State := { s with cmdId := id, arg := a, res := none }

/-- `RES <- r; PHASE <- IDLE`: the end of a command. -/
def complete (r : Result) (s : State) : State := { s with res := some r, phase := .idle }

/-- The record of a result that carries no reply: kind `NONE`, 0, 0 (R27). -/
def bareResult (st : Status) : Result := ⟨st, .none, 0, 0⟩

/-- `raise <STATUS>()` (R230): `RES <- (STATUS, NONE, 0, 0); PHASE <- IDLE`, nothing else. -/
def raise (st : Status) (s : State) : State := complete (bareResult st) s

/-- `complete_void` (R125). -/
def completeVoid (s : State) : State := complete (bareResult .okVoid) s

/-- `SET_REPLY_MODE` after the latch: `IS_REPLY <- m; RES <- (OK_VOID, NONE, 0, 0)`, `PHASE` untouched (R203). -/
def setReplyMode (m : Bool) (s : State) : State := { s with isReply := m, res := some (bareResult .okVoid) }

/-- Entry to `SEND`: `TXIDX <- 0; PHASE <- SEND` (R121). -/
def beginSend (s : State) : State := { s with txidx := 0, phase := .send }

/-- Entry to `RECV`: `RXIDX <- 0; TO_CNT <- T_TICKS; PHASE <- RECV` (R124). -/
def beginReceive (c : Cfg) (s : State) : State := { s with rxidx := 0, toCnt := c.tTicks, phase := .recv }

/-- Reset (R260): every register of the block takes its value of R36, whatever the block was doing; no result is
reported. The bytes already on the wire stay there. -/
def resetBlock (s : State) : State := State.atReset s.clock s.wire s.inputs

end Sys2Proof.Machine
end

