-- ==== Sys2Proof/Machine/Encoder.lean ====
section
/-! DEFINITION. The frame encoder (spec/40_frame_encoder.md): `BuildFn`, the store into `TXBUF`, and the build as the
sequence of writes that R100 lists. -/

namespace Sys2Proof.Machine

/-- `c = neg16(VERSION + LEN + op + ackbyte + arg[15:8] + arg[7:0])` (R101, R110). -/
def buildChecksum (c : Cfg) (op : Byte) (ack : Bool) (arg : U16) : U16 :=
  neg16 (bodySum c.version c.len op (ackByte c ack) (hi arg) (lo arg))

/-- `BuildFn(op, ack, arg)` (R110), total over all opcode bytes, flags and arguments (R105). -/
def buildFn (c : Cfg) (op : Byte) (ack : Bool) (arg : U16) : Frame :=
  #v[c.start, c.version, c.len, op, ackByte c ack, hi arg, lo arg,
    hi (buildChecksum c op ack arg), lo (buildChecksum c op ack arg), c.endMark]

/-- `Build(op, ack, arg)` as a step: `TXBUF <- BuildFn(op, ack, arg)` and no other state (R106, R110). -/
def build (c : Cfg) (op : Byte) (ack : Bool) (arg : U16) (s : State) : State :=
  { s with txbuf := buildFn c op ack arg }

/-- The nine writes of R100 into a buffer that holds `b`, in their order; the checksum is taken over the six bytes just
written. -/
def buildByWrites (c : Cfg) (op : Byte) (ack : Bool) (arg : U16) (b : Frame) : Option Frame := do
  let b ← memWrite b 0 c.start
  let b ← memWrite b 1 c.version
  let b ← memWrite b 2 c.len
  let b ← memWrite b 3 op
  let b ← memWrite b 4 (ackByte c ack)
  let b ← memWrite2 b 5 arg
  let b ← memWrite2 b 7 (neg16 (sum6 b))
  memWrite b 9 c.endMark

end Sys2Proof.Machine
end

