-- ==== Sys2Proof/Machine/Flags.lean ====
section
/-! DEFINITION. The block's flags. It has no arithmetic condition codes (spec/10_state.md R34); what steers or shows its
behaviour is `expects_reply` (spec/43_command_mapper.md R182) and the status signals of R30 to R34. -/

namespace Sys2Proof.Machine

/-- `IsQuery(id)`: `15 <= id <= 22` (R182). -/
def isQuery (id : CmdId) : Bool := 15 ≤ id.toNat && id.toNat ≤ 22

/-- `expects_reply(id, is_reply) = IsQuery(id) or is_reply` (R182). -/
def expectsReply (id : CmdId) (isReply : Bool) : Bool := isQuery id || isReply

/-- `busy = (PHASE != IDLE)` (R34). -/
def busy (s : State) : Bool := s.phase ≠ .idle

/-- `res_valid = (RES != None)` (R34). -/
def resValid (s : State) : Bool := s.res.isSome

/-- `cmd_ready = (PHASE = IDLE)` (R30). -/
def cmdReady (s : State) : Bool := s.phase = .idle

/-- `tx_valid = (PHASE = SEND)` (R32). -/
def txValid (s : State) : Bool := s.phase = .send

/-- `rx_ready = (PHASE = RECV)` (R32). -/
def rxReady (s : State) : Bool := s.phase = .recv

end Sys2Proof.Machine
end

