-- ==== Sys2Proof/Machine/Interpreter.lean ====
section
/-! DEFINITION. The frame decoder (spec/42_frame_decoder.md): `Parse` on byte sequences of any length, and `Classify`. -/

namespace Sys2Proof.Machine

/-- The four protocol errors (R150). -/
inductive ProtoError where
  | badLength | badStartMarker | badEndMarker | checksumMismatch
  deriving DecidableEq, Repr

/-- The result of `Parse` (R150). -/
inductive Parsed where
  | decoded (kind : Kind) (cmd : Byte) (value : U16)
  | error (e : ProtoError)
  deriving DecidableEq, Repr

/-- `Classify(cmd)`, the first matching line of R156. -/
def classify (c : Cfg) (cmd : Byte) : Kind :=
  if cmd = c.ropcAck then .ack
  else if cmd = c.ropcError then .periphError
  else if cmd = c.ropcMedia then .mediaPresent
  else if cmd = c.opc .getState then .playState
  else if cmd = c.opc .getVolume then .volume
  else if cmd = c.opc .getUsbCount then .countUsb
  else if cmd = c.opc .getSdCount then .countSd
  else if cmd = c.opc .getFlashCount then .countFlash
  else if cmd = c.opc .getCurUsb then .curUsb
  else if cmd = c.opc .getCurSd then .curSd
  else if cmd = c.opc .getCurFlash then .curFlash
  else .other

/-- `Parse(bytes)` (R150): length, start marker, end marker, checksum, in that order; the version, length and ack bytes are
not compared (R155); the value is passed through (R157). -/
def parse (c : Cfg) (bs : List Byte) : Parsed :=
  match frameOfBytes bs with
  | none => .error .badLength
  | some b =>
    if b[0] ≠ c.start then .error .badStartMarker
    else if b[9] ≠ c.endMark then .error .badEndMarker
    else if cat b[7] b[8] ≠ neg16 (sum6 b) then .error .checksumMismatch
    else .decoded (classify c b[3]) b[3] (cat b[5] b[6])

/-- The status that `complete_reply` raises for a protocol error (R130). -/
def protoStatus : ProtoError → Status
  | .badLength => .protoBadLength
  | .badStartMarker => .protoBadStart
  | .badEndMarker => .protoBadEnd
  | .checksumMismatch => .protoChecksum

/-- `complete_reply` (R130): the command ends with what the ten bytes of `RXBUF` decode to. -/
def completeReply (c : Cfg) (s : State) : State :=
  match parse c s.rxbuf.toList with
  | .error e => raise (protoStatus e) s
  | .decoded kind cmd value => complete ⟨.okReply, kind, cmd, value⟩ s

end Sys2Proof.Machine
end

