-- ==== Sys2Proof/Machine/Transceiver.lean ====
section
/-! DEFINITION. The transceiver control (spec/41_transceiver_control.md), each step of R122, R126, R128, R129 as a function.
Outside its phase a step is not possible and changes nothing (R133). -/

namespace Sys2Proof.Machine

/-- `end_of_send` (R124), with the latched `CMD_ID` and the current `IS_REPLY` (R182). -/
def endOfSend (c : Cfg) (s : State) : State :=
  if expectsReply s.cmdId s.isReply then beginReceive c s else completeVoid s

/-- The trace of the run is extended by `tx(b)` (R122). -/
def emit (b : Byte) (s : State) : State := { s with wire := s.wire ++ [b] }

/-- `TxAccept` (R122): the channel accepts `TXBUF[TXIDX]`. -/
def txAccept (c : Cfg) (s : State) : StepOutcome :=
  match s.phase with
  | .send =>
    match memRead s.txbuf s.txidx.toNat with
    | none => .fault (.noSuchIndex s.txidx.toNat)
    | some b =>
      if s.txidx.toNat < 9 then .next { emit b s with txidx := s.txidx + 1 }
      else .next (endOfSend c (emit b s))
  | .idle | .recv => .next s

/-- The transfer at the transmit port alone (R32): in `SEND`, with `tx_ready = ready`, the byte on offer leaves the block. No
register changes; an index that no buffer has puts no byte on offer (log 8). -/
def handOver (ready : Bool) (s : State) : State :=
  match s.phase with
  | .send => if ready then ((memRead s.txbuf s.txidx.toNat).map (emit · s)).getD s else s
  | .idle | .recv => s

/-- The store of a receive step: `MemWrite(RXBUF, RXIDX, 1, b)` (R126). -/
def storeReceived (b : Byte) (s : State) : Option State :=
  (memWrite s.rxbuf s.rxidx.toNat b).map fun buf => { s with rxbuf := buf }

/-- `RxByte(b)` (R126, R127): the block takes whatever byte comes; the tenth completes the command. -/
def rxByte (c : Cfg) (b : Byte) (s : State) : StepOutcome :=
  match s.phase with
  | .recv =>
    match storeReceived b s with
    | none => .fault (.noSuchIndex s.rxidx.toNat)
    | some t => if s.rxidx.toNat < 9 then .next { t with rxidx := s.rxidx + 1 } else .next (completeReply c t)
  | .idle | .send => .next s

/-- `RxFault` (R128): `raise LINK_ERROR()`. -/
def rxFault (s : State) : State :=
  match s.phase with
  | .recv => raise .linkError s
  | .idle | .send => s

/-- `Tick` (R129): always possible, with an effect only in `RECV`. -/
def tick (s : State) : State :=
  match s.phase with
  | .recv => if 1 < s.toCnt then { s with toCnt := s.toCnt - 1 } else raise .timeoutError s
  | .idle | .send => s

/-- The completion by a reply row with command byte `cmd` and kind `kind`: `complete_reply` (R130) for a frame whose
markers are right, so that the checksum decides (R154). It is part of the step that takes the tenth byte (R127), and
nothing at any other moment (R133). -/
def completeAs (cmd : Byte) (kind : Kind) (r : ReplyFields) (s : State) : State :=
  if s.phase = .recv ∧ s.rxidx = 9 then
    if r.checksum = neg16 (bodySum r.version r.length cmd r.ackFlag (hi r.value) (lo r.value)) then
      complete ⟨.okReply, kind, cmd, r.value⟩ s
    else raise .protoChecksum s
  else s

end Sys2Proof.Machine
end

