-- ==== Sys2Proof/Machine/Mapper.lean ====
section
/-! DEFINITION. The command-opcode mapper (spec/43_command_mapper.md): the common acceptance step (R180) and the mapper as
a pure function (R212). -/

namespace Sys2Proof.Machine

/-- `Accept(id, a)` (R180), one atomic step. Guard `PHASE = IDLE`: at any other time the block ignores the command port
(R30, R133). -/
def accept (c : Cfg) (id : CmdId) (a : U16) (s : State) : State :=
  match s.phase with
  | .idle =>
    let t := latch id a s
    match classOfId id with
    | .reserved => raise .invalidArgument t
    | .replyMode => setReplyMode (boolArg a) t
    | .transmit cmd =>
      if argLegal c cmd a then beginSend (build c (c.opc cmd) s.isReply (frameArg cmd a) t)
      else raise .invalidArgument t
  | .send | .recv => s

/-- What the mapper decides for an accepted command (R212). -/
inductive Action where
  | reject
  | setLocal (isReply : Bool)
  | send (op : Byte) (ack : Bool) (arg : U16) (wait : Bool)
  deriving DecidableEq, Repr

/-- `Map(id, a, is_reply)` (R212). -/
def mapCommand (c : Cfg) (id : CmdId) (a : U16) (isReply : Bool) : Action :=
  match classOfId id with
  | .reserved => .reject
  | .replyMode => .setLocal (boolArg a)
  | .transmit cmd =>
    if argLegal c cmd a then .send (c.opc cmd) isReply (frameArg cmd a) (isQuery id || isReply) else .reject

end Sys2Proof.Machine
end

