-- ==== Sys2Proof/Machine/Playback.lean ====
section
/-! DEFINITION. The fifteen playback commands, `CMD_ID` 0 to 14 (spec/43_command_mapper.md R186 to R200), each the acceptance step
of R180 with its own identifier; what follows the acceptance is the transceiver control's. The configuration is an argument
(spec/00_scope.md R8), and beside each stands the meaning on this hardware. -/

namespace Sys2Proof.Machine

/-- `PLAY` (R186): `Accept(0, a)`. `cmd_arg` is ignored (R184). -/
def execPlayIn (c : Cfg) (a : U16) (s : State) : StepOutcome := .next (accept c 0 a s)

/-- `execPlayIn` in the configuration of this hardware. -/
def execPlay (a : U16) (s : State) : StepOutcome := execPlayIn cfg a s

/-- `PLAY_INDEX` (R187): `Accept(1, a)`. The track index is not checked and goes out as given. -/
def execPlayIndexIn (c : Cfg) (a : U16) (s : State) : StepOutcome := .next (accept c 1 a s)

/-- `execPlayIndexIn` in the configuration of this hardware. -/
def execPlayIndex (a : U16) (s : State) : StepOutcome := execPlayIndexIn cfg a s

/-- `NEXT` (R188): `Accept(2, a)`. `cmd_arg` is ignored (R184). -/
def execNextIn (c : Cfg) (a : U16) (s : State) : StepOutcome := .next (accept c 2 a s)

/-- `execNextIn` in the configuration of this hardware. -/
def execNext (a : U16) (s : State) : StepOutcome := execNextIn cfg a s

/-- `PREVIOUS` (R189): `Accept(3, a)`. `cmd_arg` is ignored (R184). -/
def execPreviousIn (c : Cfg) (a : U16) (s : State) : StepOutcome := .next (accept c 3 a s)

/-- `execPreviousIn` in the configuration of this hardware. -/
def execPrevious (a : U16) (s : State) : StepOutcome := execPreviousIn cfg a s

/-- `SET_VOLUME` (R190): `Accept(4, a)`. `INVALID_ARGUMENT` iff the operand is above `VOL_MAX`, which is 30. -/
def execSetVolumeIn (c : Cfg) (a : U16) (s : State) : StepOutcome := .next (accept c 4 a s)

/-- `execSetVolumeIn` in the configuration of this hardware. -/
def execSetVolume (a : U16) (s : State) : StepOutcome := execSetVolumeIn cfg a s

/-- `SET_EQ` (R191): `Accept(5, a)`. `INVALID_ARGUMENT` iff not `EQ_VALID`. -/
def execSetEqIn (c : Cfg) (a : U16) (s : State) : StepOutcome := .next (accept c 5 a s)

/-- `execSetEqIn` in the configuration of this hardware. -/
def execSetEq (a : U16) (s : State) : StepOutcome := execSetEqIn cfg a s

/-- `SET_DEVICE` (R192): `Accept(6, a)`. `INVALID_ARGUMENT` iff not `DEV_VALID`, which is OPEN (log 9). -/
def execSetDeviceIn (c : Cfg) (a : U16) (s : State) : StepOutcome := .next (accept c 6 a s)

/-- `execSetDeviceIn` in the configuration of this hardware. -/
def execSetDevice (a : U16) (s : State) : StepOutcome := execSetDeviceIn cfg a s

/-- `SLEEP` (R193): `Accept(7, a)`. It puts the peripheral to sleep; the block has no sleep state (R201, R248). -/
def execSleepIn (c : Cfg) (a : U16) (s : State) : StepOutcome := .next (accept c 7 a s)

/-- `execSleepIn` in the configuration of this hardware. -/
def execSleep (a : U16) (s : State) : StepOutcome := execSleepIn cfg a s

/-- `RESET` (R194): `Accept(8, a)`. It resets the peripheral, not the block (R201). -/
def execResetIn (c : Cfg) (a : U16) (s : State) : StepOutcome := .next (accept c 8 a s)

/-- `execResetIn` in the configuration of this hardware. -/
def execReset (a : U16) (s : State) : StepOutcome := execResetIn cfg a s

/-- `PAUSE` (R195): `Accept(9, a)`. `cmd_arg` is ignored (R184). -/
def execPauseIn (c : Cfg) (a : U16) (s : State) : StepOutcome := .next (accept c 9 a s)

/-- `execPauseIn` in the configuration of this hardware. -/
def execPause (a : U16) (s : State) : StepOutcome := execPauseIn cfg a s

/-- `STOP` (R196): `Accept(10, a)`. `cmd_arg` is ignored (R184). -/
def execStopIn (c : Cfg) (a : U16) (s : State) : StepOutcome := .next (accept c 10 a s)

/-- `execStopIn` in the configuration of this hardware. -/
def execStop (a : U16) (s : State) : StepOutcome := execStopIn cfg a s

/-- `SINGLE_LOOP` (R197): `Accept(11, a)`. The operand goes out as given, not checked and not inverted. -/
def execSingleLoopIn (c : Cfg) (a : U16) (s : State) : StepOutcome := .next (accept c 11 a s)

/-- `execSingleLoopIn` in the configuration of this hardware. -/
def execSingleLoop (a : U16) (s : State) : StepOutcome := execSingleLoopIn cfg a s

/-- `SINGLE_PLAY` (R198): `Accept(12, a)`. One frame with the OPEN opcode `OPC_SINGLE_PLAY` (log 10); the index is not checked. -/
def execSinglePlayIn (c : Cfg) (a : U16) (s : State) : StepOutcome := .next (accept c 12 a s)

/-- `execSinglePlayIn` in the configuration of this hardware. -/
def execSinglePlay (a : U16) (s : State) : StepOutcome := execSinglePlayIn cfg a s

/-- `DAC_ENABLE` (R199): `Accept(13, a)`. The operand goes out as given, not checked and not inverted. -/
def execDacEnableIn (c : Cfg) (a : U16) (s : State) : StepOutcome := .next (accept c 13 a s)

/-- `execDacEnableIn` in the configuration of this hardware. -/
def execDacEnable (a : U16) (s : State) : StepOutcome := execDacEnableIn cfg a s

/-- `RANDOM_PLAY` (R200): `Accept(14, a)`. `cmd_arg` is ignored (R184). -/
def execRandomPlayIn (c : Cfg) (a : U16) (s : State) : StepOutcome := .next (accept c 14 a s)

/-- `execRandomPlayIn` in the configuration of this hardware. -/
def execRandomPlay (a : U16) (s : State) : StepOutcome := execRandomPlayIn cfg a s

end Sys2Proof.Machine
end

