-- ==== Sys2Proof/Machine/Queries.lean ====
section
/-! DEFINITION. The eight queries, `CMD_ID` 15 to 22 (spec/43_command_mapper.md R204 to R211), each the acceptance step of R180 with
its own identifier. The configuration is an argument
(spec/00_scope.md R8), and beside each stands the meaning on this hardware. -/

namespace Sys2Proof.Machine

/-- `GET_STATE` (R204): `Accept(15, a)`. The reply is awaited whatever `IS_REPLY` is (R182); `cmd_arg` is ignored (R184). -/
def execGetStateIn (c : Cfg) (a : U16) (s : State) : StepOutcome := .next (accept c 15 a s)

/-- `execGetStateIn` in the configuration of this hardware. -/
def execGetState (a : U16) (s : State) : StepOutcome := execGetStateIn cfg a s

/-- `GET_VOLUME` (R205): `Accept(16, a)`. The reply is awaited whatever `IS_REPLY` is (R182); `cmd_arg` is ignored (R184). -/
def execGetVolumeIn (c : Cfg) (a : U16) (s : State) : StepOutcome := .next (accept c 16 a s)

/-- `execGetVolumeIn` in the configuration of this hardware. -/
def execGetVolume (a : U16) (s : State) : StepOutcome := execGetVolumeIn cfg a s

/-- `GET_USB_COUNT` (R206): `Accept(17, a)`. The reply is awaited whatever `IS_REPLY` is (R182); `cmd_arg` is ignored (R184). -/
def execGetUsbCountIn (c : Cfg) (a : U16) (s : State) : StepOutcome := .next (accept c 17 a s)

/-- `execGetUsbCountIn` in the configuration of this hardware. -/
def execGetUsbCount (a : U16) (s : State) : StepOutcome := execGetUsbCountIn cfg a s

/-- `GET_SD_COUNT` (R207): `Accept(18, a)`. The reply is awaited whatever `IS_REPLY` is (R182); `cmd_arg` is ignored (R184). -/
def execGetSdCountIn (c : Cfg) (a : U16) (s : State) : StepOutcome := .next (accept c 18 a s)

/-- `execGetSdCountIn` in the configuration of this hardware. -/
def execGetSdCount (a : U16) (s : State) : StepOutcome := execGetSdCountIn cfg a s

/-- `GET_FLASH_COUNT` (R208): `Accept(19, a)`. The reply is awaited whatever `IS_REPLY` is (R182); `cmd_arg` is ignored (R184). -/
def execGetFlashCountIn (c : Cfg) (a : U16) (s : State) : StepOutcome := .next (accept c 19 a s)

/-- `execGetFlashCountIn` in the configuration of this hardware. -/
def execGetFlashCount (a : U16) (s : State) : StepOutcome := execGetFlashCountIn cfg a s

/-- `GET_CUR_USB` (R209): `Accept(20, a)`. The reply is awaited whatever `IS_REPLY` is (R182); `cmd_arg` is ignored (R184). -/
def execGetCurUsbIn (c : Cfg) (a : U16) (s : State) : StepOutcome := .next (accept c 20 a s)

/-- `execGetCurUsbIn` in the configuration of this hardware. -/
def execGetCurUsb (a : U16) (s : State) : StepOutcome := execGetCurUsbIn cfg a s

/-- `GET_CUR_SD` (R210): `Accept(21, a)`. The reply is awaited whatever `IS_REPLY` is (R182); `cmd_arg` is ignored (R184). -/
def execGetCurSdIn (c : Cfg) (a : U16) (s : State) : StepOutcome := .next (accept c 21 a s)

/-- `execGetCurSdIn` in the configuration of this hardware. -/
def execGetCurSd (a : U16) (s : State) : StepOutcome := execGetCurSdIn cfg a s

/-- `GET_CUR_FLASH` (R211): `Accept(22, a)`. The reply is awaited whatever `IS_REPLY` is (R182); `cmd_arg` is ignored (R184). -/
def execGetCurFlashIn (c : Cfg) (a : U16) (s : State) : StepOutcome := .next (accept c 22 a s)

/-- `execGetCurFlashIn` in the configuration of this hardware. -/
def execGetCurFlash (a : U16) (s : State) : StepOutcome := execGetCurFlashIn cfg a s

end Sys2Proof.Machine
end

