-- ==== Sys2Proof/Machine/Replies.lean ====
section
/-! DEFINITION. The eleven reply rows (spec/42_frame_decoder.md R156, spec/30_encoding.md R76): what a received frame with
the row's command byte does as the tenth byte is taken, `complete_reply` of spec/41_transceiver_control.md R130. A frame
with a wrong checksum ends in `PROTO_CHECKSUM` (R154); the value is passed through (R157). The configuration is an
argument (spec/00_scope.md R8), and beside each stands the meaning on this hardware. -/

namespace Sys2Proof.Machine

/-- `REPLY_ACK` (R156): a reply of kind `ACK`. -/
def execReplyAckIn (c : Cfg) (r : ReplyFields) (s : State) : StepOutcome :=
  .next (completeAs c.ropcAck .ack r s)

/-- `execReplyAckIn` in the configuration of this hardware. -/
def execReplyAck (r : ReplyFields) (s : State) : StepOutcome := execReplyAckIn cfg r s

/-- `REPLY_PERIPH_ERROR` (R156): a reply of kind `PERIPH_ERROR`. -/
def execReplyPeriphErrorIn (c : Cfg) (r : ReplyFields) (s : State) : StepOutcome :=
  .next (completeAs c.ropcError .periphError r s)

/-- `execReplyPeriphErrorIn` in the configuration of this hardware. -/
def execReplyPeriphError (r : ReplyFields) (s : State) : StepOutcome := execReplyPeriphErrorIn cfg r s

/-- `REPLY_MEDIA_PRESENT` (R156): a reply of kind `MEDIA_PRESENT`. -/
def execReplyMediaPresentIn (c : Cfg) (r : ReplyFields) (s : State) : StepOutcome :=
  .next (completeAs c.ropcMedia .mediaPresent r s)

/-- `execReplyMediaPresentIn` in the configuration of this hardware. -/
def execReplyMediaPresent (r : ReplyFields) (s : State) : StepOutcome := execReplyMediaPresentIn cfg r s

/-- `REPLY_PLAY_STATE` (R156): a reply of kind `PLAY_STATE`. -/
def execReplyPlayStateIn (c : Cfg) (r : ReplyFields) (s : State) : StepOutcome :=
  .next (completeAs (c.opc .getState) .playState r s)

/-- `execReplyPlayStateIn` in the configuration of this hardware. -/
def execReplyPlayState (r : ReplyFields) (s : State) : StepOutcome := execReplyPlayStateIn cfg r s

/-- `REPLY_VOLUME` (R156): a reply of kind `VOLUME`. -/
def execReplyVolumeIn (c : Cfg) (r : ReplyFields) (s : State) : StepOutcome :=
  .next (completeAs (c.opc .getVolume) .volume r s)

/-- `execReplyVolumeIn` in the configuration of this hardware. -/
def execReplyVolume (r : ReplyFields) (s : State) : StepOutcome := execReplyVolumeIn cfg r s

/-- `REPLY_COUNT_USB` (R156): a reply of kind `COUNT_USB`. -/
def execReplyCountUsbIn (c : Cfg) (r : ReplyFields) (s : State) : StepOutcome :=
  .next (completeAs (c.opc .getUsbCount) .countUsb r s)

/-- `execReplyCountUsbIn` in the configuration of this hardware. -/
def execReplyCountUsb (r : ReplyFields) (s : State) : StepOutcome := execReplyCountUsbIn cfg r s

/-- `REPLY_COUNT_SD` (R156): a reply of kind `COUNT_SD`. -/
def execReplyCountSdIn (c : Cfg) (r : ReplyFields) (s : State) : StepOutcome :=
  .next (completeAs (c.opc .getSdCount) .countSd r s)

/-- `execReplyCountSdIn` in the configuration of this hardware. -/
def execReplyCountSd (r : ReplyFields) (s : State) : StepOutcome := execReplyCountSdIn cfg r s

/-- `REPLY_COUNT_FLASH` (R156): a reply of kind `COUNT_FLASH`. -/
def execReplyCountFlashIn (c : Cfg) (r : ReplyFields) (s : State) : StepOutcome :=
  .next (completeAs (c.opc .getFlashCount) .countFlash r s)

/-- `execReplyCountFlashIn` in the configuration of this hardware. -/
def execReplyCountFlash (r : ReplyFields) (s : State) : StepOutcome := execReplyCountFlashIn cfg r s

/-- `REPLY_CUR_USB` (R156): a reply of kind `CUR_USB`. -/
def execReplyCurUsbIn (c : Cfg) (r : ReplyFields) (s : State) : StepOutcome :=
  .next (completeAs (c.opc .getCurUsb) .curUsb r s)

/-- `execReplyCurUsbIn` in the configuration of this hardware. -/
def execReplyCurUsb (r : ReplyFields) (s : State) : StepOutcome := execReplyCurUsbIn cfg r s

/-- `REPLY_CUR_SD` (R156): a reply of kind `CUR_SD`. -/
def execReplyCurSdIn (c : Cfg) (r : ReplyFields) (s : State) : StepOutcome :=
  .next (completeAs (c.opc .getCurSd) .curSd r s)

/-- `execReplyCurSdIn` in the configuration of this hardware. -/
def execReplyCurSd (r : ReplyFields) (s : State) : StepOutcome := execReplyCurSdIn cfg r s

/-- `REPLY_CUR_FLASH` (R156): a reply of kind `CUR_FLASH`. -/
def execReplyCurFlashIn (c : Cfg) (r : ReplyFields) (s : State) : StepOutcome :=
  .next (completeAs (c.opc .getCurFlash) .curFlash r s)

/-- `execReplyCurFlashIn` in the configuration of this hardware. -/
def execReplyCurFlash (r : ReplyFields) (s : State) : StepOutcome := execReplyCurFlashIn cfg r s

end Sys2Proof.Machine
end

