-- ==== Sys2Proof/Machine/System.lean ====
section
/-! DEFINITION. The one local command (spec/43_command_mapper.md R203). The configuration is an argument
(spec/00_scope.md R8), and beside each stands the meaning on this hardware. -/

namespace Sys2Proof.Machine

/-- `SET_REPLY_MODE` (R203): `Accept(23, a)`. Local: `IS_REPLY <- (m != 0)`, result `OK_VOID` at once, nothing built or sent. -/
def execSetReplyModeIn (c : Cfg) (a : U16) (s : State) : StepOutcome := .next (accept c 23 a s)

/-- `execSetReplyModeIn` in the configuration of this hardware. -/
def execSetReplyMode (a : U16) (s : State) : StepOutcome := execSetReplyModeIn cfg a s

end Sys2Proof.Machine
end

