-- ==== Sys2Proof/Machine/Configured.lean ====
section
/-! DEFINITION. The meaning of every instruction in any configuration (spec/00_scope.md R8); `exec` of Dispatch.lean is the
one of this hardware. -/

namespace Sys2Proof.Machine

/-- The meaning of an instruction in configuration `c`. -/
def execIn (c : Cfg) (i : Instr) (s : State) : StepOutcome :=
  match i with
  | .play a => execPlayIn c a s
  | .playIndex a => execPlayIndexIn c a s
  | .next a => execNextIn c a s
  | .previous a => execPreviousIn c a s
  | .setVolume a => execSetVolumeIn c a s
  | .setEq a => execSetEqIn c a s
  | .setDevice a => execSetDeviceIn c a s
  | .sleep a => execSleepIn c a s
  | .reset a => execResetIn c a s
  | .pause a => execPauseIn c a s
  | .stop a => execStopIn c a s
  | .singleLoop a => execSingleLoopIn c a s
  | .singlePlay a => execSinglePlayIn c a s
  | .dacEnable a => execDacEnableIn c a s
  | .randomPlay a => execRandomPlayIn c a s
  | .getState a => execGetStateIn c a s
  | .getVolume a => execGetVolumeIn c a s
  | .getUsbCount a => execGetUsbCountIn c a s
  | .getSdCount a => execGetSdCountIn c a s
  | .getFlashCount a => execGetFlashCountIn c a s
  | .getCurUsb a => execGetCurUsbIn c a s
  | .getCurSd a => execGetCurSdIn c a s
  | .getCurFlash a => execGetCurFlashIn c a s
  | .setReplyMode a => execSetReplyModeIn c a s
  | .replyAck r => execReplyAckIn c r s
  | .replyPeriphError r => execReplyPeriphErrorIn c r s
  | .replyMediaPresent r => execReplyMediaPresentIn c r s
  | .replyPlayState r => execReplyPlayStateIn c r s
  | .replyVolume r => execReplyVolumeIn c r s
  | .replyCountUsb r => execReplyCountUsbIn c r s
  | .replyCountSd r => execReplyCountSdIn c r s
  | .replyCountFlash r => execReplyCountFlashIn c r s
  | .replyCurUsb r => execReplyCurUsbIn c r s
  | .replyCurSd r => execReplyCurSdIn c r s
  | .replyCurFlash r => execReplyCurFlashIn c r s

end Sys2Proof.Machine
end

