-- ==== Sys2Proof/Machine/Dispatch.lean ====
section
/-! DEFINITION. One arm for each row of spec/opcode_table.json, in the table's order. -/

namespace Sys2Proof.Machine

def exec (i : Instr) (s : State) : Host.Outcome State Fault Refusal :=
  match i with
  | .play a => Sys2Proof.Machine.execPlay a s
  | .playIndex a => Sys2Proof.Machine.execPlayIndex a s
  | .next a => Sys2Proof.Machine.execNext a s
  | .previous a => Sys2Proof.Machine.execPrevious a s
  | .setVolume a => Sys2Proof.Machine.execSetVolume a s
  | .setEq a => Sys2Proof.Machine.execSetEq a s
  | .setDevice a => Sys2Proof.Machine.execSetDevice a s
  | .sleep a => Sys2Proof.Machine.execSleep a s
  | .reset a => Sys2Proof.Machine.execReset a s
  | .pause a => Sys2Proof.Machine.execPause a s
  | .stop a => Sys2Proof.Machine.execStop a s
  | .singleLoop a => Sys2Proof.Machine.execSingleLoop a s
  | .singlePlay a => Sys2Proof.Machine.execSinglePlay a s
  | .dacEnable a => Sys2Proof.Machine.execDacEnable a s
  | .randomPlay a => Sys2Proof.Machine.execRandomPlay a s
  | .getState a => Sys2Proof.Machine.execGetState a s
  | .getVolume a => Sys2Proof.Machine.execGetVolume a s
  | .getUsbCount a => Sys2Proof.Machine.execGetUsbCount a s
  | .getSdCount a => Sys2Proof.Machine.execGetSdCount a s
  | .getFlashCount a => Sys2Proof.Machine.execGetFlashCount a s
  | .getCurUsb a => Sys2Proof.Machine.execGetCurUsb a s
  | .getCurSd a => Sys2Proof.Machine.execGetCurSd a s
  | .getCurFlash a => Sys2Proof.Machine.execGetCurFlash a s
  | .setReplyMode a => Sys2Proof.Machine.execSetReplyMode a s
  | .replyAck r => Sys2Proof.Machine.execReplyAck r s
  | .replyPeriphError r => Sys2Proof.Machine.execReplyPeriphError r s
  | .replyMediaPresent r => Sys2Proof.Machine.execReplyMediaPresent r s
  | .replyPlayState r => Sys2Proof.Machine.execReplyPlayState r s
  | .replyVolume r => Sys2Proof.Machine.execReplyVolume r s
  | .replyCountUsb r => Sys2Proof.Machine.execReplyCountUsb r s
  | .replyCountSd r => Sys2Proof.Machine.execReplyCountSd r s
  | .replyCountFlash r => Sys2Proof.Machine.execReplyCountFlash r s
  | .replyCurUsb r => Sys2Proof.Machine.execReplyCurUsb r s
  | .replyCurSd r => Sys2Proof.Machine.execReplyCurSd r s
  | .replyCurFlash r => Sys2Proof.Machine.execReplyCurFlash r s

end Sys2Proof.Machine
end

