-- ==== Sys2Proof/Machine/Cycle.lean ====
section
/-! DEFINITION. One clock cycle of the block (spec/10_state.md R30 to R33, spec/41_transceiver_control.md R133, R134): which
transfer steps happen for given input pins, and where an instruction is fetched, decoded and executed. -/

namespace Sys2Proof.Machine

/-- A command is accepted: its word is decoded (R72) and executed; a reserved identifier names no command and ends with
`INVALID_ARGUMENT` (R84). -/
def takeCommand (c : Cfg) (run : Instr → State → StepOutcome) (id : CmdId) (a : U16) (s : State) : StepOutcome :=
  match decodeIn c (.commandWord (cmdWord id a)) with
  | .ok i => run i s
  | .error _ => .next (accept c id a s)

/-- The tenth byte is stored (R127): if the frame is a row of the table, that reply is executed; else the command completes
with what the bytes parse to (R130), an error for a wrong marker, kind `OTHER` for an unknown command byte. -/
def takeReply (c : Cfg) (run : Instr → State → StepOutcome) (s : State) : StepOutcome :=
  match decodeIn c (.replyBytes s.rxbuf.toList) with
  | .ok i => run i s
  | .error _ => .next (completeReply c s)

/-- A byte is taken in `RECV` (R126): bytes 0 to 8 advance `RXIDX`, byte 9 makes a reply. -/
def takeByte (c : Cfg) (run : Instr → State → StepOutcome) (b : Byte) (s : State) : StepOutcome :=
  match storeReceived b s with
  | none => .fault (.noSuchIndex s.rxidx.toNat)
  | some t => if s.rxidx.toNat < 9 then .next { t with rxidx := s.rxidx + 1 } else takeReply c run t

/-- The tick of the cycle is applied after its byte (R134); `tick` has no effect if the phase is over (R129). -/
def thenTick (on : Bool) : StepOutcome → StepOutcome
  | .next s => .next (if on then tick s else s)
  | .fault f => .fault f
  | .refused r => .refused r

/-- A cycle that begins in `RECV`: a fault first and alone; else the byte, then the tick (R134). -/
def recvCycle (c : Cfg) (run : Instr → State → StepOutcome) (p : InPins) (s : State) : StepOutcome :=
  if p.rxFault then .next (rxFault s)
  else if p.rxValid then thenTick p.tick (takeByte c run p.rxData s)
  else .next (if p.tick then tick s else s)

/-- One clock cycle with input pins `p`, in configuration `c` (R8) and with the meanings `run` of that configuration. `rst`
puts every register in its reset state whatever the block was doing (R33, R260); the channel accepts the byte on offer in such a
cycle as in any other in which `tx_valid` and `tx_ready` are both 1 (R32, R122; log 17). Otherwise the phase at the start of the cycle says which ports are open (R133):
the command port in `IDLE`, the transmit port in `SEND`, the receive port and the timer in `RECV`. A tick in a cycle that
begins in another phase has no effect. DEDUCED (log 13), unsafe if a chip counts it. -/
def cycleIn (c : Cfg) (run : Instr → State → StepOutcome) (p : InPins) (s : State) : StepOutcome :=
  if p.rst then .next (resetBlock (handOver p.txReady s))
  else
    match s.phase with
    | .idle => if p.cmdValid then takeCommand c run p.cmdId p.cmdArg s else .next s
    | .send => if p.txReady then txAccept c s else .next s
    | .recv => recvCycle c run p s

/-- One clock cycle of this hardware: its configuration, and the meanings of `exec`. -/
def cycle (p : InPins) (s : State) : StepOutcome := cycleIn cfg exec p s

/-- The input pins of the next cycle. Where no input cycle is placed the pins are quiet. DESIGN CHOICE (log 2), safe: a
statement for every state is one for every list of input cycles. -/
def pins (s : State) : InPins := s.inputs.headD {}

/-- The clock edge: the input cycle is taken from `inputs`, and `clock` counts it (log 2, log 3). -/
def edge (s : State) : State := { s with inputs := s.inputs.tail, clock := s.clock + 1 }

/-- One clock cycle with the pins that the environment drives in it. -/
def clockCycle (s : State) : StepOutcome := cycle (pins s) (edge s)

/-- The step of the block in any configuration (R8): `step` is the one of this hardware. -/
def stepIn (c : Cfg) (s : State) : StepOutcome := cycleIn c (execIn c) (pins s) (edge s)

/-- The state in which the very next cycle presents command word `w` and the command port is open (R30). -/
def presentCommand (w : CmdWord) (s : State) : State :=
  { s with
    phase := .idle
    inputs := { cmdValid := true, cmdId := wordId w, cmdArg := wordArg w } :: s.inputs }

/-- The state in which the very next cycle offers byte 9 of the frame `f` and the block has taken bytes 0 to 8 (R126). -/
def offerReply (f : Frame) (s : State) : State :=
  { s with
    phase := .recv
    rxidx := 9
    rxbuf := f.set 9 (s.rxbuf[9])
    inputs := { rxValid := true, rxData := f[9] } :: s.inputs }

/-- The instruction of an opcode-table row placed where the next step fetches it (log 15): a command at the command port,
a reply frame at the receive port. -/
def placeTableWord (s : State) (nbits w : Nat) : State :=
  if nbits ≤ 24 then presentCommand (BitVec.ofNat 21 w) s
  else
    match decodeTableWord nbits w with
    | some i =>
      match encode i with
      | .commandWord cw => presentCommand cw s
      | .replyBytes _ => offerReply (frameOfWord w) s
    | none => offerReply (frameOfWord w) s

end Sys2Proof.Machine
end

