-- ==== Sys2Proof/Machine/Step.lean ====
section
/-! DEFINITION. The step, one clock cycle (spec/92_eei_decisions.md D1; log 1), and where a table row's instruction is
placed. -/

namespace Sys2Proof.Machine

/-- One clock cycle with the next input cycle. -/
def step (s : State) : Host.Outcome State Fault Refusal := clockCycle s

/-- `s` with the instruction of an opcode-table row placed so that the very next step runs it (log 15). -/
def State.withFetchWord (s : State) (nbits w : Nat) : State := placeTableWord s nbits w

end Sys2Proof.Machine
end

