-- ==== Sys2Proof/Machine/Ports.lean ====
section
/-! DEFINITION. The output pins and the numeric codes they carry (spec/10_state.md R27, R30 to R32; spec/30_encoding.md
R90). -/

namespace Sys2Proof.Machine

/-- The 2-bit code of `PHASE` (R20). -/
def phaseCode : Phase → BitVec 2
  | .idle => 0
  | .send => 1
  | .recv => 2

/-- The 4-bit code of a status (R27, R231). -/
def statusCode : Status → BitVec 4
  | .okVoid => 0
  | .okReply => 1
  | .invalidArgument => 2
  | .linkError => 3
  | .timeoutError => 4
  | .protoBadLength => 5
  | .protoBadStart => 6
  | .protoBadEnd => 7
  | .protoChecksum => 8

/-- The 4-bit code of a kind (R27). -/
def kindCode : Kind → BitVec 4
  | .none => 0
  | .ack => 1
  | .playState => 2
  | .volume => 3
  | .mediaPresent => 4
  | .countUsb => 5
  | .countSd => 6
  | .countFlash => 7
  | .curUsb => 8
  | .curSd => 9
  | .curFlash => 10
  | .periphError => 11
  | .other => 12

/-- The four result pins: `RES`, or unspecified while `res_valid = 0` (R31; log 12). -/
def resultPins (s : State) : BitVec 4 × BitVec 4 × Byte × U16 :=
  match s.res with
  | some r => (statusCode r.status, kindCode r.kind, r.cmd, r.value)
  | none => Config.unspecifiedResultPins s.clock

/-- `tx_data`: `TXBUF[TXIDX]` while `tx_valid`, unspecified otherwise (R32; log 12), and unspecified for an index that
no buffer has. -/
def txData (s : State) : Byte :=
  match s.phase with
  | .send => (memRead s.txbuf s.txidx.toNat).getD (Config.unspecifiedTxData s.clock)
  | .idle | .recv => Config.unspecifiedTxData s.clock

/-- Every output pin of the block (R30 to R32). -/
structure OutPins where
  cmdReady : Bool
  resValid : Bool
  resStatus : BitVec 4
  resKind : BitVec 4
  resCmd : Byte
  resValue : U16
  busy : Bool
  txValid : Bool
  txData : Byte
  rxReady : Bool
  deriving DecidableEq, Repr

/-- The output pins as a function of the state (R30 to R32). -/
def outPins (s : State) : OutPins where
  cmdReady := cmdReady s
  resValid := resValid s
  resStatus := (resultPins s).1
  resKind := (resultPins s).2.1
  resCmd := (resultPins s).2.2.1
  resValue := (resultPins s).2.2.2
  busy := busy s
  txValid := txValid s
  txData := txData s
  rxReady := rxReady s

end Sys2Proof.Machine
end

