-- ==== Sys2Proof/Safety.lean ====
section
/-! DEFINITION. What counts as a legal state and a safe run (spec/10_state.md R39, spec/70_reset_and_hazards.md R273), in the
terms the statements use. -/

namespace Sys2Proof.Machine

/-- A frame as R39 says `TXBUF` is while a command is in progress, for reply mode `m`. -/
structure FrameBuilt (m : Bool) (b : Frame) : Prop where
  start : b[0] = cfg.start
  version : b[1] = cfg.version
  length : b[2] = cfg.len
  endMark : b[9] = cfg.endMark
  ack : b[4] = ackByte cfg m
  checksum : cat b[7] b[8] = neg16 (sum6 b)

/-- The invariants of every reachable state (R39). -/
structure Inv (s : State) : Prop where
  send : s.phase = .send → s.txidx.toNat ≤ 9
  recv : s.phase = .recv → s.rxidx.toNat ≤ 9 ∧ 1 ≤ s.toCnt
  result : s.phase ≠ .idle → s.res = none
  frame : s.phase ≠ .idle → FrameBuilt s.isReply s.txbuf

/-- The block is quiescent (R273). -/
def quiescent (s : State) : Prop := s.phase = .idle

/-- The result of a command is one the block may report: only a decoded reply carries a kind, a command byte and a value
(R27), its kind is that of its command byte (R156), and `PROTO_BAD_LENGTH` is never reported (R162). -/
def ResultLegal (r : Result) : Prop :=
  (r.status = .okReply → r.kind = classify cfg r.cmd) ∧
    (r.status ≠ .okReply → r.kind = .none ∧ r.cmd = 0 ∧ r.value = 0) ∧ r.status ≠ .protoBadLength

/-- Two states that differ at most in bytes no rule may read: `TXBUF` while no command is in progress (R22), and the bytes
of `RXBUF` that the receive phase has not yet taken (R23). -/
structure SameButDeadBytes (s t : State) : Prop where
  isReply : s.isReply = t.isReply
  phase : s.phase = t.phase
  txidx : s.txidx = t.txidx
  rxidx : s.rxidx = t.rxidx
  cmdId : s.cmdId = t.cmdId
  arg : s.arg = t.arg
  toCnt : s.toCnt = t.toCnt
  res : s.res = t.res
  wire : s.wire = t.wire
  inputs : s.inputs = t.inputs
  clock : s.clock = t.clock
  txbuf : s.phase ≠ .idle → s.txbuf = t.txbuf
  rxbuf : s.phase = .recv → ∀ j, j < s.rxidx.toNat → memRead s.rxbuf j = memRead t.rxbuf j

/-- Two sets of output pins agree wherever the spec gives them a value: the result pins while `res_valid`, `tx_data` while
`tx_valid`, the other five always (R30 to R32). What a pin shows while it is unspecified is not compared (log 12). -/
structure SamePins (o p : OutPins) : Prop where
  cmdReady : o.cmdReady = p.cmdReady
  resValid : o.resValid = p.resValid
  busy : o.busy = p.busy
  txValid : o.txValid = p.txValid
  rxReady : o.rxReady = p.rxReady
  result : o.resValid = true →
    o.resStatus = p.resStatus ∧ o.resKind = p.resKind ∧ o.resCmd = p.resCmd ∧ o.resValue = p.resValue
  txData : o.txValid = true → o.txData = p.txData

/-- A step is safe when it gives a next state: no fault, no refusal. -/
def Safe (s : State) : Prop := ∃ t, step s = .next t

end Sys2Proof.Machine
end

