-- ==== Sys2Proof/Certificates/Slice0/Obligations.lean ====
section
/-! DEFINITION. The statements for the provers. "log n" is notes/assumptions/n.md. -/

open Sys2Proof Sys2Proof.Machine

namespace Sys2Proof.Machine

/-- The state right after the acceptance of a transmitting command with a legal operand (R180, R121): the operand latched,
no result, the frame with opcode `op` and argument `v` in `TXBUF`, byte 0 on offer; nothing else changed. -/
def sending (id : CmdId) (a : U16) (op : Byte) (v : U16) (s : State) : State :=
  { s with
    cmdId := id, arg := a, res := none, txbuf := buildFn cfg op s.isReply v, txidx := 0, phase := .send }

/-- The state right after a command was rejected (R183): the operand latched and `INVALID_ARGUMENT`; nothing else changed. -/
def rejected (id : CmdId) (a : U16) (s : State) : State :=
  { s with cmdId := id, arg := a, res := some ⟨.invalidArgument, .none, 0, 0⟩ }

/-- The state right after a command in progress ended with a result (R125, R130, R230): `RES` and `PHASE`; nothing else
changed. -/
def ended (st : Status) (kind : Kind) (cmd : Byte) (value : U16) (s : State) : State :=
  { s with res := some ⟨st, kind, cmd, value⟩, phase := .idle }

/-- R182 in its own numbers: a reply is awaited for the identifiers 15 to 22, and for every identifier in reply mode. -/
abbrev AwaitsReply (id : CmdId) (isReply : Bool) : Prop := (15 ≤ id.toNat ∧ id.toNat ≤ 22) ∨ isReply = true

/-- The state after the tenth byte of a command frame (R124): the receive window opens, or the command is done. -/
def sendDone (s : State) : State :=
  if AwaitsReply s.cmdId s.isReply then { s with rxidx := 0, toCnt := cfg.tTicks, phase := .recv }
  else ended .okVoid .none 0 0 s

/-- The end of a command whose ten reply bytes stand in `RXBUF` (R130). -/
def replyDone (s : State) : State :=
  match parse cfg s.rxbuf.toList with
  | .decoded kind cmd value => ended .okReply kind cmd value s
  | .error .badLength => ended .protoBadLength .none 0 0 s
  | .error .badStartMarker => ended .protoBadStart .none 0 0 s
  | .error .badEndMarker => ended .protoBadEnd .none 0 0 s
  | .error .checksumMismatch => ended .protoChecksum .none 0 0 s

end Sys2Proof.Machine

/-! ### Buffers and checksum -/

/-- A 16-bit write puts the more significant byte at the lower index, a 16-bit read gives the value back, and every other
index reads as before (R15, R50, R55); at an index above 8 neither is defined. -/
def Obligations.WordWriteIsBigEndian : Prop :=
  ∀ (b : Frame) (i : Nat) (v : U16),
    (i ≤ 8 → ∃ b', memWrite2 b i v = some b' ∧ memRead b' i = some (hi v) ∧ memRead b' (i + 1) = some (lo v) ∧
        memRead2 b' i = some v ∧ ∀ j, j ≠ i → j ≠ i + 1 → memRead b' j = memRead b j) ∧
      (8 < i → memWrite2 b i v = none ∧ memRead2 b i = none)

/-- R103: the two forms of a valid checksum are one condition, and every built frame meets it. -/
def Obligations.ChecksumValidIffSumIsZero : Prop :=
  (∀ b : Frame, (sum6 b + (cat b[7] b[8]).toNat) % 65536 = 0 ↔ cat b[7] b[8] = neg16 (sum6 b)) ∧
    ∀ (c : Cfg) (op : Byte) (ack : Bool) (arg : U16),
      (sum6 (buildFn c op ack arg) +
          (cat (buildFn c op ack arg)[7] (buildFn c op ack arg)[8]).toNat) % 65536 = 0

/-- R102, R104 (a), (b), (c): the sum never exceeds 1530, the checksum is 0 only for an all-zero body, its high byte is 0 or
at least 0xFA, and a frame built by this hardware has a checksum from 0xFBFD to 0xFEFB, both reached. -/
def Obligations.ChecksumRange : Prop :=
  (∀ b : Frame, sum6 b ≤ 1530 ∧
      (neg16 (sum6 b) = 0 ↔ b[1] = 0 ∧ b[2] = 0 ∧ b[3] = 0 ∧ b[4] = 0 ∧ b[5] = 0 ∧ b[6] = 0) ∧
      (hi (neg16 (sum6 b)) = 0 ∨ 0xFA ≤ (hi (neg16 (sum6 b))).toNat)) ∧
    (∀ (op : Byte) (ack : Bool) (arg : U16),
      0xFBFD ≤ (buildChecksum cfg op ack arg).toNat ∧ (buildChecksum cfg op ack arg).toNat ≤ 0xFEFB) ∧
    buildChecksum cfg 0xFF true 0xFFFF = 0xFBFD ∧ buildChecksum cfg 0x00 false 0x0000 = 0xFEFB

/-- R104 (d), R270: rearranging the body bytes of an accepted frame gives a frame that is accepted again. -/
def Obligations.PermutedBodyIsStillAccepted : Prop :=
  ∀ (c : Cfg) (f g : Frame) (k : Kind) (m : Byte) (v : U16),
    parse c f.toList = .decoded k m v →
    [f[1], f[2], f[3], f[4], f[5], f[6]].Perm [g[1], g[2], g[3], g[4], g[5], g[6]] →
    g[0] = f[0] → g[7] = f[7] → g[8] = f[8] → g[9] = f[9] →
    parse c g.toList = .decoded (classify c g[3]) g[3] (cat g[5] g[6])

/-! ### The frame encoder -/

/-- R106: the nine writes of R100 give the frame of `BuildFn` whatever `TXBUF` held before, and `Build` writes no other
register. -/
def Obligations.BuildWritesAllTenBytes : Prop :=
  (∀ (c : Cfg) (op : Byte) (ack : Bool) (arg : U16) (b : Frame),
      buildByWrites c op ack arg b = some (buildFn c op ack arg)) ∧
    ∀ (c : Cfg) (op : Byte) (ack : Bool) (arg : U16) (s : State),
      build c op ack arg s = { s with txbuf := buildFn c op ack arg }

/-- The ten bytes this hardware builds (R52, R73, R101), with the checksum computed in the integers. `ACK_TRUE = 0x01` is
PRESUMED (log 11). -/
def Obligations.BuiltFrameBytes : Prop :=
  ∀ (op : Byte) (ack : Bool) (arg : U16), ∃ k : U16,
    (buildFn cfg op ack arg).toList =
        [0x7E, 0xFF, 0x06, op, if ack then 0x01 else 0x00, hi arg, lo arg, hi k, lo k, 0xEF] ∧
      k.toNat = 0x10000 - (0xFF + 0x06 + op.toNat + (if ack then 1 else 0) + arg.toNat / 256 + arg.toNat % 256)

/-- R107: a built frame, looped back, decodes to its opcode and its argument, in every configuration. -/
def Obligations.ParseOfBuildIsDecoded : Prop :=
  ∀ (c : Cfg) (op : Byte) (ack : Bool) (arg : U16),
    parse c (buildFn c op ack arg).toList = .decoded (classify c op) op arg

/-! ### The frame decoder -/

/-- R151: `BadLength` for exactly the sequences that are not ten bytes long, whatever the bytes are. -/
def Obligations.BadLengthIffNotTenBytes : Prop :=
  ∀ (c : Cfg) (bs : List Byte), parse c bs = .error .badLength ↔ bs.length ≠ 10

/-- R152, R153: on sequences of any length, the start marker is judged first among ten bytes, then the end marker, both
before the checksum. -/
def Obligations.MarkerVerdicts : Prop :=
  ∀ (c : Cfg) (bs : List Byte),
    (parse c bs = .error .badStartMarker ↔ bs.length = 10 ∧ bs[0]? ≠ some c.start) ∧
      (parse c bs = .error .badEndMarker ↔ bs.length = 10 ∧ bs[0]? = some c.start ∧ bs[9]? ≠ some c.endMark)

/-- R154, in both of its forms, on sequences of any length. -/
def Obligations.ChecksumVerdict : Prop :=
  ∀ (c : Cfg) (bs : List Byte),
    (parse c bs = .error .checksumMismatch ↔
        ∃ f : Frame, bs = f.toList ∧ f[0] = c.start ∧ f[9] = c.endMark ∧ cat f[7] f[8] ≠ neg16 (sum6 f)) ∧
      (parse c bs = .error .checksumMismatch ↔
        ∃ f : Frame, bs = f.toList ∧ f[0] = c.start ∧ f[9] = c.endMark ∧ (sum6 f + (cat f[7] f[8]).toNat) % 65536 ≠ 0)

/-- R159: what is accepted, and that each body has exactly one accepted frame. -/
def Obligations.AcceptedFrames : Prop :=
  (∀ (c : Cfg) (bs : List Byte),
      (∃ k m v, parse c bs = .decoded k m v) ↔
        ∃ f : Frame, bs = f.toList ∧ f[0] = c.start ∧ f[9] = c.endMark ∧
          cat f[7] f[8] = neg16 (f[1].toNat + f[2].toNat + f[3].toNat + f[4].toNat + f[5].toNat + f[6].toNat)) ∧
    ∀ (c : Cfg) (b1 b2 b3 b4 b5 b6 : Byte),
      ∃! f : Frame, (f[1] = b1 ∧ f[2] = b2 ∧ f[3] = b3 ∧ f[4] = b4 ∧ f[5] = b5 ∧ f[6] = b6) ∧
        ∃ k m v, parse c f.toList = .decoded k m v

/-- R155: any version, length and ack bytes are accepted under the checksum of the body as received; changed alone, each is
caught, as `ChecksumMismatch`. -/
def Obligations.VersionLengthAckOnlySummed : Prop :=
  (∀ (c : Cfg) (version length ackFlag cmd : Byte) (value : U16),
      let k := neg16 (bodySum version length cmd ackFlag (hi value) (lo value))
      parse c [c.start, version, length, cmd, ackFlag, hi value, lo value, hi k, lo k, c.endMark] =
        .decoded (classify c cmd) cmd value) ∧
    ∀ (c : Cfg) (f : Frame) (k : Kind) (m : Byte) (v : U16) (x : Byte),
      parse c f.toList = .decoded k m v →
      (x ≠ f[1] → parse c (f.set 1 x).toList = .error .checksumMismatch) ∧
        (x ≠ f[2] → parse c (f.set 2 x).toList = .error .checksumMismatch) ∧
        (x ≠ f[4] → parse c (f.set 4 x).toList = .error .checksumMismatch)

/-- R160: a single bit flipped in bytes 1 to 8 of a built frame is a `ChecksumMismatch`. -/
def Obligations.SingleBitFlipIsMismatch : Prop :=
  ∀ (c : Cfg) (op : Byte) (ack : Bool) (arg : U16) (i : Fin 10) (k : Fin 8),
    1 ≤ i.val → i.val ≤ 8 →
    parse c ((buildFn c op ack arg).set i ((buildFn c op ack arg)[i] ^^^ BitVec.twoPow 8 k)).toList =
      .error .checksumMismatch

/-- R156, R10: in a well-formed configuration each of the eleven command bytes selects its own kind, and every other byte
`OTHER`. -/
def Obligations.ClassifySelectsEachKind : Prop :=
  ∀ c : Cfg, c.WF →
    (classify c c.ropcAck = .ack ∧ classify c c.ropcError = .periphError ∧ classify c c.ropcMedia = .mediaPresent ∧
      classify c (c.opc .getState) = .playState ∧ classify c (c.opc .getVolume) = .volume ∧
      classify c (c.opc .getUsbCount) = .countUsb ∧ classify c (c.opc .getSdCount) = .countSd ∧
      classify c (c.opc .getFlashCount) = .countFlash ∧ classify c (c.opc .getCurUsb) = .curUsb ∧
      classify c (c.opc .getCurSd) = .curSd ∧ classify c (c.opc .getCurFlash) = .curFlash) ∧
    ∀ b, b ∉ c.replyBytes → classify c b = .other

/-! ### Encodings -/

/-- Every instruction, with every operand, is what its own code decodes to (R71, R72, R76). -/
def Obligations.DecodeOfEncode : Prop :=
  ∀ i : Instr, decode (encode i) = .ok i

/-- Every code that decodes is the code of the instruction it decodes to: no two codes are one instruction. -/
def Obligations.EncodeOfDecode : Prop :=
  ∀ (x : Code) (i : Instr), decode x = .ok i → encode i = x

/-- What decodes (R72, R84, R76): a command word with an identifier below 24; ten bytes with the right markers and a command
byte of the reply map. -/
def Obligations.WhatDecodes : Prop :=
  (∀ w : CmdWord, (∃ i, decode (.commandWord w) = .ok i) ↔ (wordId w).toNat < 24) ∧
    ∀ bs : List Byte, (∃ i, decode (.replyBytes bs) = .ok i) ↔
      ∃ f : Frame, bs = f.toList ∧ f[0] = cfg.start ∧ f[9] = cfg.endMark ∧ f[3] ∈ cfg.replyBytes

/-- Words written out from the encodings of R71, R72 decode to the instructions they stand for. That the frame with command
byte 0x43 is `REPLY_VOLUME` is R156 with the spec's default for that byte, PRESUMED (log 11). -/
def Obligations.WrittenOutWordsDecode : Prop :=
  decode (.commandWord 0b001000000000000011100) = .ok (.setVolume 28) ∧
    decode (.commandWord 0b011111010101111001101) = .ok (.getState 0xABCD) ∧
    decode (.commandWord 0b101110000000100000000) = .ok (.setReplyMode 0x0100) ∧
    decode (.replyBytes [0x7E, 0xFF, 0x06, 0x43, 0x00, 0x00, 0x1C, 0xFE, 0x9C, 0xEF]) =
      .ok (.replyVolume ⟨0xFF, 0x06, 0x00, 0x001C, 0xFE9C⟩)

/-! ### The instructions -/

/-- R186, R188, R189, R193 to R196, R200: an argumentless playback command presented while `IDLE` begins to send its frame,
whatever operand it is presented with. The opcode bytes are the spec's defaults, PRESUMED (log 11). -/
def Obligations.ArgumentlessPlaybackBeginsToSend : Prop :=
  ∀ (a : U16) (s : State), s.phase = .idle →
    exec (.play a) s = .next (sending 0 a 0x0D 0 s) ∧
    exec (.next a) s = .next (sending 2 a 0x01 0 s) ∧
    exec (.previous a) s = .next (sending 3 a 0x02 0 s) ∧
    exec (.sleep a) s = .next (sending 7 a 0x0A 0 s) ∧
    exec (.reset a) s = .next (sending 8 a 0x0C 0 s) ∧
    exec (.pause a) s = .next (sending 9 a 0x0E 0 s) ∧
    exec (.stop a) s = .next (sending 10 a 0x16 0 s) ∧
    exec (.randomPlay a) s = .next (sending 14 a 0x18 0 s)

/-- R187, R197 to R199: a command with an unchecked operand presented while `IDLE` begins to send it unchanged. The opcode
bytes are the spec's defaults, PRESUMED (log 11); that of `SINGLE_PLAY` is free (log 10). -/
def Obligations.UncheckedOperandIsSentUnchanged : Prop :=
  ∀ (a : U16) (s : State), s.phase = .idle →
    exec (.playIndex a) s = .next (sending 1 a 0x03 a s) ∧
    exec (.singleLoop a) s = .next (sending 11 a 0x19 a s) ∧
    exec (.singlePlay a) s = .next (sending 12 a Config.opcSinglePlay a s) ∧
    exec (.dacEnable a) s = .next (sending 13 a 0x1A a s)

/-- R204 to R211: a query presented while `IDLE` begins to send its frame, whatever operand it is presented with. The opcode
bytes are the spec's defaults, PRESUMED (log 11). -/
def Obligations.QueryBeginsToSend : Prop :=
  ∀ (a : U16) (s : State), s.phase = .idle →
    exec (.getState a) s = .next (sending 15 a 0x42 0 s) ∧
    exec (.getVolume a) s = .next (sending 16 a 0x43 0 s) ∧
    exec (.getUsbCount a) s = .next (sending 17 a 0x47 0 s) ∧
    exec (.getSdCount a) s = .next (sending 18 a 0x48 0 s) ∧
    exec (.getFlashCount a) s = .next (sending 19 a 0x49 0 s) ∧
    exec (.getCurUsb a) s = .next (sending 20 a 0x4B 0 s) ∧
    exec (.getCurSd a) s = .next (sending 21 a 0x4C 0 s) ∧
    exec (.getCurFlash a) s = .next (sending 22 a 0x4D 0 s)

/-- R190: `SET_VOLUME` sends an operand up to 30, and rejects every other before anything is built or sent. -/
def Obligations.SetVolumeChecksItsOperand : Prop :=
  ∀ (v : U16) (s : State), s.phase = .idle →
    (v.toNat ≤ 30 → exec (.setVolume v) s = .next (sending 4 v 0x06 v s)) ∧
      (30 < v.toNat → exec (.setVolume v) s = .next (rejected 4 v s))

/-- R191 with the spec's default `EQ_VALID` and opcode, PRESUMED (log 11). -/
def Obligations.SetEqChecksItsOperand : Prop :=
  ∀ (e : U16) (s : State), s.phase = .idle →
    (e.toNat ≤ 5 → exec (.setEq e) s = .next (sending 5 e 0x07 e s)) ∧
      (5 < e.toNat → exec (.setEq e) s = .next (rejected 5 e s))

/-- R192: `SET_DEVICE` sends an operand that `DEV_VALID` admits, and rejects every other, for every `DEV_VALID` (free,
log 9). The opcode is the spec's default, PRESUMED (log 11). -/
def Obligations.SetDeviceChecksItsOperand : Prop :=
  ∀ (d : U16) (s : State), s.phase = .idle →
    exec (.setDevice d) s = .next (if Config.devValid d then sending 6 d 0x09 d s else rejected 6 d s)

/-- R203: `SET_REPLY_MODE` sets `IS_REPLY` to whether the operand is not 0, ends at once, and changes nothing else. -/
def Obligations.SetReplyModeIsLocal : Prop :=
  ∀ (m : U16) (s : State), s.phase = .idle →
    exec (.setReplyMode m) s =
      .next { s with cmdId := 23, arg := m, isReply := decide (m ≠ 0), res := some ⟨.okVoid, .none, 0, 0⟩ }

/-- R130, R156, R157: as the tenth byte is taken, a frame of a reply row with a valid checksum ends the command with the
row's kind and the frame's value unchanged. The command bytes are the spec's defaults, PRESUMED (log 11). -/
def Obligations.ReplyRowEndsTheCommand : Prop :=
  ∀ (r : ReplyFields) (s : State), s.phase = .recv → s.rxidx = 9 →
    (r.checksumValid 0x41 → exec (.replyAck r) s = .next (ended .okReply .ack 0x41 r.value s)) ∧
    (r.checksumValid 0x40 → exec (.replyPeriphError r) s = .next (ended .okReply .periphError 0x40 r.value s)) ∧
    (r.checksumValid 0x3F → exec (.replyMediaPresent r) s = .next (ended .okReply .mediaPresent 0x3F r.value s)) ∧
    (r.checksumValid 0x42 → exec (.replyPlayState r) s = .next (ended .okReply .playState 0x42 r.value s)) ∧
    (r.checksumValid 0x43 → exec (.replyVolume r) s = .next (ended .okReply .volume 0x43 r.value s)) ∧
    (r.checksumValid 0x47 → exec (.replyCountUsb r) s = .next (ended .okReply .countUsb 0x47 r.value s)) ∧
    (r.checksumValid 0x48 → exec (.replyCountSd r) s = .next (ended .okReply .countSd 0x48 r.value s)) ∧
    (r.checksumValid 0x49 → exec (.replyCountFlash r) s = .next (ended .okReply .countFlash 0x49 r.value s)) ∧
    (r.checksumValid 0x4B → exec (.replyCurUsb r) s = .next (ended .okReply .curUsb 0x4B r.value s)) ∧
    (r.checksumValid 0x4C → exec (.replyCurSd r) s = .next (ended .okReply .curSd 0x4C r.value s)) ∧
    (r.checksumValid 0x4D → exec (.replyCurFlash r) s = .next (ended .okReply .curFlash 0x4D r.value s))

/-- R130, R154: as the tenth byte is taken, a reply row whose checksum is wrong, that is, an instruction that is not well
formed, ends the command with `PROTO_CHECKSUM`. -/
def Obligations.IllFormedReplyIsProtoChecksum : Prop :=
  ∀ (i : Instr) (s : State), i.wellFormed = false → s.phase = .recv → s.rxidx = 9 →
    exec i s = .next (ended .protoChecksum .none 0 0 s)

/-- A command presented while the block is busy changes nothing (R30). That `exec` of a reply row at any moment but the tenth
byte of a receive phase, where R133 says only that the step is not possible, leaves the state as it is, is the model's choice,
DEDUCED (log 16). -/
def Obligations.InstructionOutOfItsPhaseChangesNothing : Prop :=
  ∀ (i : Instr) (s : State),
    ((∃ w, encode i = .commandWord w) → s.phase ≠ .idle → exec i s = .next s) ∧
      ((∃ bs, encode i = .replyBytes bs) → ¬(s.phase = .recv ∧ s.rxidx = 9) → exec i s = .next s)

/-- The frame of all 35 instructions (R21, R22, R23, R201): none writes `RXBUF`, `RXIDX` or `TO_CNT` or puts a byte on the
wire; `IS_REPLY` is `SET_REPLY_MODE`'s alone; a reply writes only `RES` and `PHASE`; and where a byte of `TXBUF` reads
differently, the instruction is a command accepted while `IDLE` that goes on to `SEND`. -/
def Obligations.InstructionFrames : Prop :=
  ∀ (i : Instr) (s t : State), exec i s = .next t →
    (∀ j, memRead t.rxbuf j = memRead s.rxbuf j) ∧ t.rxidx = s.rxidx ∧ t.toCnt = s.toCnt ∧ t.wire = s.wire ∧
      t.inputs = s.inputs ∧ t.clock = s.clock ∧
      (t.isReply = s.isReply ∨ ∃ m, i = .setReplyMode m) ∧
      ((∀ j, memRead t.txbuf j = memRead s.txbuf j) ∨
        (∃ w, encode i = .commandWord w) ∧ s.phase = .idle ∧ t.phase = .send) ∧
      ((∃ w, encode i = .commandWord w) ∨
        t.cmdId = s.cmdId ∧ t.arg = s.arg ∧ t.txidx = s.txidx ∧ t.txbuf = s.txbuf)

/-! ### The mapper -/

/-- R212, R182: what `Map` decides, case by case, `wait` spelled out as `15 <= id <= 22 or is_reply`, and that the acceptance step does what it decides, in every configuration. -/
def Obligations.AcceptFollowsMap : Prop :=
  ∀ (c : Cfg) (id : CmdId) (a : U16) (s : State), s.phase = .idle →
    (mapCommand c id a s.isReply = .reject ↔
        24 ≤ id.toNat ∨ ∃ cmd, classOfId id = .transmit cmd ∧ argLegal c cmd a = false) ∧
    (∀ m, mapCommand c id a s.isReply = .setLocal m ↔ id = 23 ∧ m = decide (a ≠ 0)) ∧
    (∀ op ack arg wait, mapCommand c id a s.isReply = .send op ack arg wait ↔
        ∃ cmd, id = idOfCmd cmd ∧ argLegal c cmd a = true ∧ op = c.opc cmd ∧ ack = s.isReply ∧
          arg = (if carries cmd then a else 0) ∧
          wait = decide ((15 ≤ id.toNat ∧ id.toNat ≤ 22) ∨ s.isReply = true)) ∧
    match mapCommand c id a s.isReply with
    | .reject => accept c id a s = rejected id a s
    | .setLocal m =>
        accept c id a s = { s with cmdId := id, arg := a, isReply := m, res := some ⟨.okVoid, .none, 0, 0⟩ }
    | .send op ack arg _ => accept c id a s =
        { s with
          cmdId := id, arg := a, res := none, txbuf := buildFn c op ack arg, txidx := 0, phase := .send }

/-- R183: an illegal operand ends the command in the acceptance step, and only `CMD_ID`, `ARG` and `RES` change. -/
def Obligations.IllegalOperandLeavesNoTrace : Prop :=
  ∀ (c : Cfg) (id : CmdId) (cmd : TxCmd) (a : U16) (s : State),
    s.phase = .idle → classOfId id = .transmit cmd → argLegal c cmd a = false →
    accept c id a s = { s with cmdId := id, arg := a, res := some ⟨.invalidArgument, .none, 0, 0⟩ } ∧
      cmdReady (accept c id a s) = true

/-- R184: the frame of an argument-carrying command holds the operand's 16 bits; an argumentless command presented with
another operand differs in `ARG` alone, and its frame holds 0. -/
def Obligations.OnlyCarriedOperandsReachTheFrame : Prop :=
  ∀ (c : Cfg) (cmd : TxCmd) (a : U16) (s : State), s.phase = .idle → argLegal c cmd a = true →
    (carries cmd = true →
        memRead2 (accept c (idOfCmd cmd) a s).txbuf 5 = some a) ∧
      (carries cmd = false →
        memRead2 (accept c (idOfCmd cmd) a s).txbuf 5 = some 0 ∧
          ∀ b, accept c (idOfCmd cmd) b s = { accept c (idOfCmd cmd) a s with arg := b })

/-- R84: a reserved identifier accepted at the command port ends at once with `INVALID_ARGUMENT`; nothing is built or sent,
and `IS_REPLY` is unchanged. -/
def Obligations.ReservedIdentifierIsInvalidArgument : Prop :=
  ∀ s : State, s.phase = .idle → (pins s).rst = false → (pins s).cmdValid = true → 24 ≤ (pins s).cmdId.toNat →
    step s = .next (rejected (pins s).cmdId (pins s).cmdArg (edge s))

/-! ### The step -/

/-- A step runs the decoded command (R30, R72, R180): in a cycle where a command is accepted, the step is the meaning of the
instruction that the command word decodes to, on the state at the clock edge. -/
def Obligations.StepRunsTheDecodedCommand : Prop :=
  ∀ (s : State) (i : Instr), s.phase = .idle → (pins s).rst = false → (pins s).cmdValid = true →
    decode (.commandWord (cmdWord (pins s).cmdId (pins s).cmdArg)) = .ok i →
    step s = exec i (edge s)

/-- A step runs the decoded reply (R126, R127): in a cycle where the tenth byte is taken and its ten bytes decode to a
reply row, the step is that instruction's meaning on the state with the byte stored; a tick of the same cycle finds the
phase over. -/
def Obligations.StepRunsTheDecodedReply : Prop :=
  ∀ (s u : State) (i : Instr), s.phase = .recv → s.rxidx = 9 → (pins s).rst = false → (pins s).rxFault = false →
    (pins s).rxValid = true → storeReceived (pins s).rxData (edge s) = some u →
    decode (.replyBytes u.rxbuf.toList) = .ok i →
    step s = exec i u

/-- R260: a cycle with `rst` puts every register in its reset state whatever the block was doing, and reports no result.
Nothing is said of the two buffers. The byte on offer in `SEND` is accepted in the reset cycle too if `tx_ready = 1`, as R32 says
of every cycle; that a reset exempts nothing from R32, and that the input cycles go on, is DEDUCED (log 17). -/
def Obligations.ResetFromAnyState : Prop :=
  ∀ s : State, (pins s).rst = true →
    ∃ t, step s = .next t ∧ t.isReply = false ∧ t.phase = .idle ∧ t.txidx = 0 ∧ t.rxidx = 0 ∧ t.cmdId = 0 ∧
      t.arg = 0 ∧ t.toCnt = 0 ∧ t.res = none ∧ t.inputs = s.inputs.tail ∧
      (s.phase ≠ .send ∨ (pins s).txReady = false → t.wire = s.wire) ∧
      ∀ b, s.phase = .send → (pins s).txReady = true → memRead s.txbuf s.txidx.toNat = some b → t.wire = s.wire ++ [b]

/-- R36: the reset state and the pins it shows. Nothing is said of the two buffers, whose bytes are free. -/
def Obligations.StateAfterReset : Prop :=
  State.reset.isReply = false ∧ State.reset.phase = .idle ∧ State.reset.txidx = 0 ∧ State.reset.rxidx = 0 ∧
    State.reset.cmdId = 0 ∧ State.reset.arg = 0 ∧ State.reset.toCnt = 0 ∧ State.reset.res = none ∧
    (outPins State.reset).cmdReady = true ∧ (outPins State.reset).busy = false ∧
    (outPins State.reset).resValid = false ∧ (outPins State.reset).txValid = false ∧
    (outPins State.reset).rxReady = false

/-- R133: a cycle that begins in `IDLE` without reset and without a command changes nothing of the block, whatever the byte,
fault and tick pins say. -/
def Obligations.IdleIgnoresBytesFaultsAndTicks : Prop :=
  ∀ s : State, s.phase = .idle → (pins s).rst = false → (pins s).cmdValid = false → step s = .next (edge s)

/-- R122, R124, R125: a cycle of `SEND` in which the channel does not accept changes nothing; where it accepts byte `TXIDX`,
that byte goes on the wire, bytes 0 to 8 advance `TXIDX`, byte 9 opens the receive window or ends the command with
`OK_VOID`. That `TO_CNT` is `T_TICKS` also when a tick comes in the cycle that accepts byte 9, and that a fault of that cycle has
no effect, is the model's choice, DEDUCED (log 13). -/
def Obligations.TransmitStep : Prop :=
  ∀ (s : State) (b : Byte), s.phase = .send → (pins s).rst = false → memRead s.txbuf s.txidx.toNat = some b →
    ((pins s).txReady = false → step s = .next (edge s)) ∧
      ((pins s).txReady = true → s.txidx.toNat < 9 →
        step s = .next { edge s with wire := s.wire ++ [b], txidx := s.txidx + 1 }) ∧
      ((pins s).txReady = true → s.txidx.toNat = 9 → step s = .next (sendDone { edge s with wire := s.wire ++ [b] }))

/-- R132: in `SEND` faults and ticks have no effect; and while the channel accepts nothing and no reset comes, the block stays
in `SEND` for any number of cycles, whatever the other pins say. Past the placed input cycles this rests on the quiet pins of
log 2, the model's DESIGN CHOICE, and in the cycle that accepts byte 9 the first clause rests on log 13, DEDUCED. -/
def Obligations.StalledChannelHangs : Prop :=
  (∀ (p : InPins) (fault tick : Bool) (s : State), s.phase = .send →
      cycle { p with rxFault := fault, tick := tick } s = cycle p s) ∧
    ∀ (n : Nat) (s : State), s.phase = .send → (∀ p ∈ s.inputs, p.rst = false ∧ p.txReady = false) →
      Sys2Proof.core.run n s = .next { s with inputs := s.inputs.drop n, clock := s.clock + n }

/-- R123: as long as no reset comes, what the wire gained since the start of `SEND` is exactly the first `TXIDX` bytes of
`TXBUF`, and all ten when the phase is left. -/
def Obligations.SendEmitsTheFrameInOrder : Prop :=
  ∀ (w : List Byte) (s t : State), s.phase = .send → s.txidx.toNat ≤ 9 → (pins s).rst = false →
    s.wire = w ++ s.txbuf.toList.take s.txidx.toNat → step s = .next t →
    t.txbuf = s.txbuf ∧
      (t.phase = .send ∧ t.txidx.toNat ≤ 9 ∧ t.wire = w ++ s.txbuf.toList.take t.txidx.toNat ∨
        t.phase ≠ .send ∧ t.wire = w ++ s.txbuf.toList)

/-- R32, R57, R60, R133: a step, with or without reset, puts at most one byte on the wire, only in `SEND` and where the channel is
ready, and it is `TXBUF[TXIDX]`; no byte leaves the wire. -/
def Obligations.WireGrowsByTheByteOnOffer : Prop :=
  ∀ s t : State, step s = .next t →
    t.wire = s.wire ∨
      s.phase = .send ∧ (pins s).txReady = true ∧ ∃ b, memRead s.txbuf s.txidx.toNat = some b ∧ t.wire = s.wire ++ [b]

/-- R126: a byte that is not the tenth, in a cycle without a tick, is stored at `RXIDX` whatever it is; `RXIDX` advances and
nothing else changes. -/
def Obligations.ReceivedByteIsStored : Prop :=
  ∀ s : State, s.phase = .recv → (pins s).rst = false → (pins s).rxFault = false → (pins s).rxValid = true →
    (pins s).tick = false → s.rxidx.toNat < 9 →
    ∃ buf, memWrite s.rxbuf s.rxidx.toNat (pins s).rxData = some buf ∧
      step s = .next { edge s with rxbuf := buf, rxidx := s.rxidx + 1 }

/-- R127, R130, R131: the tenth byte ends the command, in the same step and whatever the tick pin says, with what the ten
bytes of `RXBUF` parse to: the decode-and-execute path of the step is the spec's `complete_reply`. -/
def Obligations.TenthByteCompletesByParse : Prop :=
  ∀ s : State, s.phase = .recv → s.rxidx = 9 → (pins s).rst = false → (pins s).rxFault = false →
    (pins s).rxValid = true →
    ∃ buf, memWrite s.rxbuf 9 (pins s).rxData = some buf ∧
      step s = .next (replyDone { edge s with rxbuf := buf })

/-- R128: a link fault in `RECV` ends the command with `LINK_ERROR` whatever the byte and tick pins say, and the byte is not
taken; in any other phase the fault pin has no effect. -/
def Obligations.LinkFaultEndsOnlyAReceive : Prop :=
  (∀ s : State, s.phase = .recv → (pins s).rst = false → (pins s).rxFault = true →
      step s = .next (ended .linkError .none 0 0 (edge s))) ∧
    ∀ (p : InPins) (f : Bool) (s : State), s.phase ≠ .recv → cycle { p with rxFault := f } s = cycle p s

/-- R129: a tick in `RECV` takes one from `TO_CNT`, the last one ends the command with `TIMEOUT_ERROR`; in any other phase
at the start of the cycle the tick pin has no effect, DEDUCED (log 13). -/
def Obligations.TickCountsDownAReceive : Prop :=
  (∀ s : State, s.phase = .recv → (pins s).rst = false → (pins s).rxFault = false → (pins s).rxValid = false →
      (pins s).tick = true →
      (1 < s.toCnt → step s = .next { edge s with toCnt := s.toCnt - 1 }) ∧
        (s.toCnt ≤ 1 → step s = .next (ended .timeoutError .none 0 0 (edge s)))) ∧
    ∀ (p : InPins) (b : Bool) (s : State), s.phase ≠ .recv → cycle { p with tick := b } s = cycle p s

/-- R129: a receive phase with `n` ticks left, and `n` cycles of ticks without a byte, ends with `TIMEOUT_ERROR` at the last
of them and not before. -/
def Obligations.TimeoutAtTheLastTick : Prop :=
  ∀ (n : Nat) (s : State), s.phase = .recv → s.toCnt = n + 1 →
    (∀ p ∈ s.inputs.take (n + 1), p.rst = false ∧ p.rxFault = false ∧ p.rxValid = false ∧ p.tick = true) →
    n + 1 ≤ s.inputs.length →
    Sys2Proof.core.run n s = .next { s with toCnt := 1, inputs := s.inputs.drop n, clock := s.clock + n } ∧
      Sys2Proof.core.run (n + 1) s =
        .next (ended .timeoutError .none 0 0
          { s with toCnt := 1, inputs := s.inputs.drop (n + 1), clock := s.clock + (n + 1) })

/-- R134: in one cycle of `RECV`, a fault goes first and alone; a byte goes before a tick; the tick counts if the block is
still in `RECV`, so that a tenth byte beats the last tick and an earlier byte is stored and then timed out. -/
def Obligations.SameCyclePriority : Prop :=
  ∀ s : State, s.phase = .recv → (pins s).rst = false →
    ((pins s).rxFault = true → step s = .next (ended .linkError .none 0 0 (edge s))) ∧
    ((pins s).rxFault = false → (pins s).rxValid = true → s.rxidx.toNat < 9 →
      ∃ buf, memWrite s.rxbuf s.rxidx.toNat (pins s).rxData = some buf ∧
        step s = .next
          (if (pins s).tick = false then { edge s with rxbuf := buf, rxidx := s.rxidx + 1 }
          else if 1 < s.toCnt then { edge s with rxbuf := buf, rxidx := s.rxidx + 1, toCnt := s.toCnt - 1 }
          else ended .timeoutError .none 0 0 { edge s with rxbuf := buf, rxidx := s.rxidx + 1 })) ∧
    ((pins s).rxFault = false → (pins s).rxValid = true → s.rxidx.toNat = 9 →
      ∃ buf, memWrite s.rxbuf 9 (pins s).rxData = some buf ∧
        step s = .next (replyDone { edge s with rxbuf := buf }))

/-! ### Invariants and whole-machine rules -/

/-- R39 holds after reset. -/
def Obligations.ResetMeetsTheInvariants : Prop := Inv State.reset

/-- R39: every step from a state that meets the invariants gives one that meets them. -/
def Obligations.StepKeepsTheInvariants : Prop :=
  ∀ s t : State, Inv s → step s = .next t → Inv t

/-- A state that meets R39 always has a next state: no fault, no refusal (log 8). -/
def Obligations.InvariantStatesAlwaysStep : Prop :=
  ∀ s : State, Inv s → ∃ t, step s = .next t

/-- R21: `IS_REPLY` changes only by an accepted `SET_REPLY_MODE`, to whether its operand is not 0, or by reset, to 0. -/
def Obligations.ReplyModeHasOneMutator : Prop :=
  ∀ s t : State, step s = .next t → t.isReply ≠ s.isReply →
    (pins s).rst = true ∧ t.isReply = false ∨
      s.phase = .idle ∧ (pins s).cmdValid = true ∧ (pins s).cmdId = 23 ∧ t.isReply = decide ((pins s).cmdArg ≠ 0)

/-- R136: the phase changes of a step without reset are those of the phase graph, each with its cause: a transmitting command
with a legal operand; the acceptance of byte 9, with or without a reply awaited (R182); and out of `RECV` a link fault, else the
tenth byte, else the last tick. Where the cause is absent the phase stays. -/
def Obligations.PhaseGraph : Prop :=
  ∀ s t : State, step s = .next t → (pins s).rst = false →
    (s.phase = .idle ∧ t.phase = .idle ∧
      ((pins s).cmdValid = true → ∀ cmd, (pins s).cmdId = idOfCmd cmd → argLegal cfg cmd (pins s).cmdArg = false)) ∨
    (s.phase = .idle ∧ t.phase = .send ∧ (pins s).cmdValid = true ∧ (pins s).cmdId.toNat ≤ 22 ∧
      ∃ cmd, (pins s).cmdId = idOfCmd cmd ∧ argLegal cfg cmd (pins s).cmdArg = true) ∨
    (s.phase = .send ∧ t.phase = .send ∧ ((pins s).txReady = true → s.txidx ≠ 9)) ∨
    (s.phase = .send ∧ t.phase = .recv ∧ (pins s).txReady = true ∧ s.txidx = 9 ∧ AwaitsReply s.cmdId s.isReply) ∨
    (s.phase = .send ∧ t.phase = .idle ∧ (pins s).txReady = true ∧ s.txidx = 9 ∧
      ¬AwaitsReply s.cmdId s.isReply ∧ t.res = some ⟨.okVoid, .none, 0, 0⟩) ∨
    (s.phase = .recv ∧ t.phase = .recv ∧ (pins s).rxFault = false ∧ ((pins s).rxValid = true → s.rxidx ≠ 9) ∧
      ((pins s).tick = true → 1 < s.toCnt)) ∨
    (s.phase = .recv ∧ t.phase = .idle ∧ t.res.isSome = true ∧
      ((pins s).rxFault = true ∨
        (pins s).rxFault = false ∧ (pins s).rxValid = true ∧ s.rxidx = 9 ∨
        (pins s).rxFault = false ∧ (pins s).tick = true ∧ s.toCnt ≤ 1))

/-- R27, R156, R162: the result register only ever holds a legal result: `PROTO_BAD_LENGTH` is never reported, and only a
decoded reply carries a kind, a command byte and a value. -/
def Obligations.ResultStaysLegal : Prop :=
  ∀ s t : State, (∀ r, s.res = some r → ResultLegal r) → step s = .next t → ∀ r, t.res = some r → ResultLegal r

/-- R182, R249: the block is in `RECV` only for a command that awaits a reply, a query or any command in reply mode; every
step keeps it. -/
def Obligations.ReceivesOnlyWhenAReplyIsExpected : Prop :=
  ∀ s t : State, (s.phase = .recv → AwaitsReply s.cmdId s.isReply) → step s = .next t →
    t.phase = .recv → AwaitsReply t.cmdId t.isReply

/-- R22, R23, R36, R236: the bytes a buffer holds from a reset or from an earlier command are never observed. Two states that
differ only in bytes no rule may read take steps to two states of that kind again, and show the same pins wherever the spec
gives a pin a value. -/
def Obligations.DeadBufferBytesAreNeverObserved : Prop :=
  ∀ s s' t : State, SameButDeadBytes s s' → step s = .next t →
    ∃ t', step s' = .next t' ∧ SameButDeadBytes t t' ∧ SamePins (outPins t) (outPins t')

/-- R30 to R32, R34: the pins in each phase. While busy under R39 no result shows; `tx_data` is the byte on offer. The result
pins carry the numeric codes of R27 and R90: status 0 to 8, kind 0 to 12. -/
def Obligations.PinsOfEachPhase : Prop :=
  ∀ s : State, Inv s →
    (s.phase = .idle → (outPins s).cmdReady = true ∧ (outPins s).busy = false ∧ (outPins s).txValid = false ∧
      (outPins s).rxReady = false) ∧
    (s.phase = .send → (outPins s).cmdReady = false ∧ (outPins s).busy = true ∧ (outPins s).txValid = true ∧
      (outPins s).rxReady = false ∧ (outPins s).resValid = false ∧
      memRead s.txbuf s.txidx.toNat = some (outPins s).txData) ∧
    (s.phase = .recv → (outPins s).cmdReady = false ∧ (outPins s).busy = true ∧ (outPins s).txValid = false ∧
      (outPins s).rxReady = true ∧ (outPins s).resValid = false) ∧
    ∀ r, s.res = some r → (outPins s).resValid = true ∧
      (∀ x ∈ [(Status.okVoid, (0 : BitVec 4)), (.okReply, 1), (.invalidArgument, 2), (.linkError, 3), (.timeoutError, 4),
          (.protoBadLength, 5), (.protoBadStart, 6), (.protoBadEnd, 7), (.protoChecksum, 8)],
        r.status = x.1 → (outPins s).resStatus = x.2) ∧
      (∀ x ∈ [(Kind.none, (0 : BitVec 4)), (.ack, 1), (.playState, 2), (.volume, 3), (.mediaPresent, 4), (.countUsb, 5),
          (.countSd, 6), (.countFlash, 7), (.curUsb, 8), (.curSd, 9), (.curFlash, 10), (.periphError, 11), (.other, 12)],
        r.kind = x.1 → (outPins s).resKind = x.2) ∧
      (outPins s).resCmd = r.cmd ∧ (outPins s).resValue = r.value

/-! ### Whole commands -/

/-- R120, R123, R125, R264: with reply mode off, a command that is not a query, with a legal operand, puts exactly its frame
on the wire in the ten cycles in which the channel accepts a byte, and ends with `OK_VOID`, whatever the other pins say. -/
def Obligations.FireAndForgetRun : Prop :=
  ∀ (s : State) (cmd : TxCmd) (p : InPins) (ps rest : List InPins),
    s.phase = .idle → s.isReply = false → isQuery (idOfCmd cmd) = false → s.inputs = p :: (ps ++ rest) →
    p.rst = false → p.cmdValid = true → p.cmdId = idOfCmd cmd → argLegal cfg cmd p.cmdArg = true →
    ps.length = 10 → (∀ q ∈ ps, q.rst = false ∧ q.txReady = true) →
    ∃ t, Sys2Proof.core.run 11 s = .next t ∧
      t.wire = s.wire ++ (buildFn cfg (cfg.opc cmd) false (frameArg cmd p.cmdArg)).toList ∧
      t.phase = .idle ∧ t.res = some ⟨.okVoid, .none, 0, 0⟩ ∧ t.isReply = false ∧ t.rxbuf = s.rxbuf ∧ t.inputs = rest

/-- R120, R127, R130, R182: a command that expects a reply, a query or any command in reply mode, puts exactly its frame on
the wire, takes the next ten bytes the channel delivers, whatever they are, and ends with what they parse to. That a tick or a
fault in the cycle that accepts byte 9 has no effect is DEDUCED (log 13). -/
def Obligations.CommandAndReplyRun : Prop :=
  ∀ (s : State) (cmd : TxCmd) (p : InPins) (ps qs rest : List InPins) (f : Frame),
    s.phase = .idle → expectsReply (idOfCmd cmd) s.isReply = true → s.inputs = p :: (ps ++ (qs ++ rest)) →
    p.rst = false → p.cmdValid = true → p.cmdId = idOfCmd cmd → argLegal cfg cmd p.cmdArg = true →
    ps.length = 10 → (∀ q ∈ ps, q.rst = false ∧ q.txReady = true) →
    qs.map InPins.rxData = f.toList →
    (∀ q ∈ qs, q.rst = false ∧ q.rxFault = false ∧ q.rxValid = true ∧ q.tick = false) →
    ∃ t, Sys2Proof.core.run 21 s = .next t ∧
      t.wire = s.wire ++ (buildFn cfg (cfg.opc cmd) s.isReply (frameArg cmd p.cmdArg)).toList ∧
      t.rxbuf = f ∧ t.phase = .idle ∧ t.isReply = s.isReply ∧ t.inputs = rest ∧
      match parse cfg f.toList with
      | .error e => t.res = some ⟨protoStatus e, .none, 0, 0⟩
      | .decoded k m v => t.res = some ⟨.okReply, k, m, v⟩

/-! ### Every configuration -/

/-- R8: the block takes its configuration as an argument, and in every configuration its step is the transfer rules of that
configuration: reset (R33), the acceptance of a command in `IDLE` (R30, R180), the transmit step in `SEND` (R122, R132), and in
`RECV` fault, byte and tick in the order of R134. The step of this hardware is that of its own configuration. Two points are the
model's choice, DEDUCED: that in a reset cycle the channel accepts the byte on offer as R32 says of every cycle (log 17), and that
a tick or a fault in a cycle of `SEND`, also in the one that accepts byte 9, has no effect (log 13). -/
def Obligations.EveryConfigurationFollowsTheRules : Prop :=
  (∀ (c : Cfg) (s : State),
      ((pins s).rst = true → stepIn c s = .next (resetBlock (handOver (pins s).txReady (edge s)))) ∧
      ((pins s).rst = false → s.phase = .idle →
        stepIn c s =
          .next (if (pins s).cmdValid then accept c (pins s).cmdId (pins s).cmdArg (edge s) else edge s)) ∧
      ((pins s).rst = false → s.phase = .send →
        stepIn c s = if (pins s).txReady then txAccept c (edge s) else .next (edge s)) ∧
      ((pins s).rst = false → s.phase = .recv →
        stepIn c s =
          if (pins s).rxFault then .next (rxFault (edge s))
          else thenTick (pins s).tick
            (if (pins s).rxValid then rxByte c (pins s).rxData (edge s) else .next (edge s)))) ∧
    ∀ s : State, step s = stepIn cfg s
end

