-- ==== Sys2Proof/Laws/Bits.lean ====
section
/-! SUPPORT. The arithmetic of R13, R15 and R72: splitting and joining are inverse, the sum never wraps, the negation is
what R103 says. -/

namespace Sys2Proof.Machine

theorem cat_toNat (h l : Byte) : (cat h l).toNat = 256 * h.toNat + l.toNat := by
  have := h.isLt
  have := l.isLt
  simp only [cat, BitVec.toNat_ofNat]
  omega

theorem hi_toNat (v : U16) : (hi v).toNat = v.toNat / 256 := by
  have := v.isLt
  simp only [hi, BitVec.toNat_ofNat]
  omega

theorem lo_toNat (v : U16) : (lo v).toNat = v.toNat % 256 := by
  simp only [lo, BitVec.toNat_ofNat]
  omega

@[simp] theorem hi_cat (h l : Byte) : hi (cat h l) = h := by
  apply BitVec.eq_of_toNat_eq
  have := l.isLt
  rw [hi_toNat, cat_toNat]
  omega

@[simp] theorem lo_cat (h l : Byte) : lo (cat h l) = l := by
  apply BitVec.eq_of_toNat_eq
  have := l.isLt
  rw [lo_toNat, cat_toNat]
  omega

@[simp] theorem cat_hi_lo (v : U16) : cat (hi v) (lo v) = v := by
  apply BitVec.eq_of_toNat_eq
  rw [cat_toNat, hi_toNat, lo_toNat]
  omega

theorem neg16_toNat (n : Nat) : (neg16 n).toNat = (65536 - n) % 65536 := by
  simp only [neg16, BitVec.toNat_ofNat]
  omega

/-- R102: the sum of the six body bytes lies between 0 and 1530. -/
theorem bodySum_le (a b c d e f : Byte) : bodySum a b c d e f ≤ 1530 := by
  have := a.isLt
  have := b.isLt
  have := c.isLt
  have := d.isLt
  have := e.isLt
  have := f.isLt
  simp only [bodySum]
  omega

@[simp] theorem frameOfBytes_toList (f : Frame) : frameOfBytes f.toList = some f := by
  have h : f.toList.length = frameLen := by simp
  simp only [frameOfBytes, dif_pos h]
  rfl

theorem frameOfBytes_eq_none {bs : List Byte} : frameOfBytes bs = none ↔ bs.length ≠ 10 := by
  simp [frameOfBytes]

theorem frameOfBytes_eq_some {bs : List Byte} {f : Frame} (h : frameOfBytes bs = some f) : bs = f.toList := by
  simp only [frameOfBytes] at h
  split at h
  · obtain rfl := Option.some.inj h
    rfl
  · cases h

theorem cmdWord_toNat (id : CmdId) (a : U16) : (cmdWord id a).toNat = 65536 * id.toNat + a.toNat := by
  have := id.isLt
  have := a.isLt
  simp only [cmdWord, BitVec.toNat_ofNat]
  omega

@[simp] theorem wordId_cmdWord (id : CmdId) (a : U16) : wordId (cmdWord id a) = id := by
  apply BitVec.eq_of_toNat_eq
  have := id.isLt
  have := a.isLt
  simp only [wordId, cmdWord_toNat, BitVec.toNat_ofNat]
  omega

@[simp] theorem wordArg_cmdWord (id : CmdId) (a : U16) : wordArg (cmdWord id a) = a := by
  apply BitVec.eq_of_toNat_eq
  have := a.isLt
  simp only [wordArg, cmdWord_toNat, BitVec.toNat_ofNat]
  omega

@[simp] theorem cmdWord_wordId_wordArg (w : CmdWord) : cmdWord (wordId w) (wordArg w) = w := by
  apply BitVec.eq_of_toNat_eq
  have := w.isLt
  simp only [cmdWord_toNat, wordId, wordArg, BitVec.toNat_ofNat]
  omega

end Sys2Proof.Machine
end

