-- ==== Sys2Proof/Laws/Memory.lean ====
section
/-! SUPPORT. The buffers as memory: a read after a write, a write leaves every other index alone, and every buffer has the
form of its cells (log 8). -/

namespace Sys2Proof.Machine

theorem memRead_of_lt (b : Frame) (i : Nat) (h : i < frameLen) : memRead b i = some b[i] := by
  simp [memRead, h]

theorem memRead_eq_none (b : Frame) (i : Nat) : memRead b i = none ↔ frameLen ≤ i := by
  simp [memRead]

theorem memWrite_of_lt (b : Frame) (i : Nat) (v : Byte) (h : i < frameLen) : memWrite b i v = some (b.set i v) := by
  simp [memWrite, h]

theorem memWrite_eq_none (b : Frame) (i : Nat) (v : Byte) : memWrite b i v = none ↔ frameLen ≤ i := by
  simp [memWrite]

/-- What a one-byte write can do: it succeeds exactly at an index of the buffer, and a read then gives the byte written
there and what was there before elsewhere. -/
theorem memWrite_spec {b b' : Frame} {i : Nat} {v : Byte} (h : memWrite b i v = some b') :
    i < frameLen ∧ memRead b' i = some v ∧ ∀ j, j ≠ i → memRead b' j = memRead b j := by
  simp only [memWrite] at h
  split at h
  · rename_i hi
    obtain rfl := Option.some.inj h
    refine ⟨hi, by simp [memRead], fun j hj => ?_⟩
    simp only [memRead]
    by_cases hj' : j < frameLen
    · simp [hj', Vector.getElem_set_ne _ _ (Ne.symm hj)]
    · simp [hj']
  · cases h

@[simp] theorem cells_wf (b : Frame) : cellsWf (cells b) = true := by
  simp [cellsWf, cells, List.map_fst_zip]

theorem memWrite_keeps_wf {b b' : Frame} {i : Nat} {v : Byte} (_ : memWrite b i v = some b') :
    cellsWf (cells b') = true := cells_wf b'

theorem reset_buffers_wf :
    cellsWf (cells State.reset.txbuf) = true ∧ cellsWf (cells State.reset.rxbuf) = true :=
  ⟨cells_wf _, cells_wf _⟩

/-- Two buffers with the same cells are the same buffer. -/
theorem cells_injective {b b' : Frame} (h : cells b = cells b') : b = b' := by
  have := congrArg (List.map Prod.snd) h
  simp only [cells] at this
  rw [List.map_snd_zip (by simp), List.map_snd_zip (by simp)] at this
  exact Vector.toList_inj.mp this

end Sys2Proof.Machine
end

