-- ==== Sys2Proof/Laws/State.lean ====
section
/-! SUPPORT. One lemma for each field of the state and each record update of the model's operations. -/

namespace Sys2Proof.Machine

@[simp] theorem latch_isReply (id : CmdId) (a : U16) (s : State) : (latch id a s).isReply = s.isReply := rfl
@[simp] theorem latch_txbuf (id : CmdId) (a : U16) (s : State) : (latch id a s).txbuf = s.txbuf := rfl
@[simp] theorem latch_rxbuf (id : CmdId) (a : U16) (s : State) : (latch id a s).rxbuf = s.rxbuf := rfl
@[simp] theorem latch_phase (id : CmdId) (a : U16) (s : State) : (latch id a s).phase = s.phase := rfl
@[simp] theorem latch_txidx (id : CmdId) (a : U16) (s : State) : (latch id a s).txidx = s.txidx := rfl
@[simp] theorem latch_rxidx (id : CmdId) (a : U16) (s : State) : (latch id a s).rxidx = s.rxidx := rfl
@[simp] theorem latch_cmdId (id : CmdId) (a : U16) (s : State) : (latch id a s).cmdId = id := rfl
@[simp] theorem latch_arg (id : CmdId) (a : U16) (s : State) : (latch id a s).arg = a := rfl
@[simp] theorem latch_toCnt (id : CmdId) (a : U16) (s : State) : (latch id a s).toCnt = s.toCnt := rfl
@[simp] theorem latch_res (id : CmdId) (a : U16) (s : State) : (latch id a s).res = none := rfl
@[simp] theorem latch_wire (id : CmdId) (a : U16) (s : State) : (latch id a s).wire = s.wire := rfl
@[simp] theorem latch_inputs (id : CmdId) (a : U16) (s : State) : (latch id a s).inputs = s.inputs := rfl
@[simp] theorem latch_clock (id : CmdId) (a : U16) (s : State) : (latch id a s).clock = s.clock := rfl

@[simp] theorem complete_isReply (r : Result) (s : State) : (complete r s).isReply = s.isReply := rfl
@[simp] theorem complete_txbuf (r : Result) (s : State) : (complete r s).txbuf = s.txbuf := rfl
@[simp] theorem complete_rxbuf (r : Result) (s : State) : (complete r s).rxbuf = s.rxbuf := rfl
@[simp] theorem complete_phase (r : Result) (s : State) : (complete r s).phase = .idle := rfl
@[simp] theorem complete_txidx (r : Result) (s : State) : (complete r s).txidx = s.txidx := rfl
@[simp] theorem complete_rxidx (r : Result) (s : State) : (complete r s).rxidx = s.rxidx := rfl
@[simp] theorem complete_cmdId (r : Result) (s : State) : (complete r s).cmdId = s.cmdId := rfl
@[simp] theorem complete_arg (r : Result) (s : State) : (complete r s).arg = s.arg := rfl
@[simp] theorem complete_toCnt (r : Result) (s : State) : (complete r s).toCnt = s.toCnt := rfl
@[simp] theorem complete_res (r : Result) (s : State) : (complete r s).res = some r := rfl
@[simp] theorem complete_wire (r : Result) (s : State) : (complete r s).wire = s.wire := rfl
@[simp] theorem complete_inputs (r : Result) (s : State) : (complete r s).inputs = s.inputs := rfl
@[simp] theorem complete_clock (r : Result) (s : State) : (complete r s).clock = s.clock := rfl

@[simp] theorem raise_isReply (st : Status) (s : State) : (raise st s).isReply = s.isReply := rfl
@[simp] theorem raise_txbuf (st : Status) (s : State) : (raise st s).txbuf = s.txbuf := rfl
@[simp] theorem raise_rxbuf (st : Status) (s : State) : (raise st s).rxbuf = s.rxbuf := rfl
@[simp] theorem raise_phase (st : Status) (s : State) : (raise st s).phase = .idle := rfl
@[simp] theorem raise_txidx (st : Status) (s : State) : (raise st s).txidx = s.txidx := rfl
@[simp] theorem raise_rxidx (st : Status) (s : State) : (raise st s).rxidx = s.rxidx := rfl
@[simp] theorem raise_cmdId (st : Status) (s : State) : (raise st s).cmdId = s.cmdId := rfl
@[simp] theorem raise_arg (st : Status) (s : State) : (raise st s).arg = s.arg := rfl
@[simp] theorem raise_toCnt (st : Status) (s : State) : (raise st s).toCnt = s.toCnt := rfl
@[simp] theorem raise_res (st : Status) (s : State) : (raise st s).res = some (bareResult st) := rfl
@[simp] theorem raise_wire (st : Status) (s : State) : (raise st s).wire = s.wire := rfl
@[simp] theorem raise_inputs (st : Status) (s : State) : (raise st s).inputs = s.inputs := rfl
@[simp] theorem raise_clock (st : Status) (s : State) : (raise st s).clock = s.clock := rfl

@[simp] theorem completeVoid_isReply (s : State) : (completeVoid s).isReply = s.isReply := rfl
@[simp] theorem completeVoid_txbuf (s : State) : (completeVoid s).txbuf = s.txbuf := rfl
@[simp] theorem completeVoid_rxbuf (s : State) : (completeVoid s).rxbuf = s.rxbuf := rfl
@[simp] theorem completeVoid_phase (s : State) : (completeVoid s).phase = .idle := rfl
@[simp] theorem completeVoid_txidx (s : State) : (completeVoid s).txidx = s.txidx := rfl
@[simp] theorem completeVoid_rxidx (s : State) : (completeVoid s).rxidx = s.rxidx := rfl
@[simp] theorem completeVoid_cmdId (s : State) : (completeVoid s).cmdId = s.cmdId := rfl
@[simp] theorem completeVoid_arg (s : State) : (completeVoid s).arg = s.arg := rfl
@[simp] theorem completeVoid_toCnt (s : State) : (completeVoid s).toCnt = s.toCnt := rfl
@[simp] theorem completeVoid_res (s : State) : (completeVoid s).res = some (bareResult .okVoid) := rfl
@[simp] theorem completeVoid_wire (s : State) : (completeVoid s).wire = s.wire := rfl
@[simp] theorem completeVoid_inputs (s : State) : (completeVoid s).inputs = s.inputs := rfl
@[simp] theorem completeVoid_clock (s : State) : (completeVoid s).clock = s.clock := rfl

@[simp] theorem setReplyMode_isReply (m : Bool) (s : State) : (setReplyMode m s).isReply = m := rfl
@[simp] theorem setReplyMode_txbuf (m : Bool) (s : State) : (setReplyMode m s).txbuf = s.txbuf := rfl
@[simp] theorem setReplyMode_rxbuf (m : Bool) (s : State) : (setReplyMode m s).rxbuf = s.rxbuf := rfl
@[simp] theorem setReplyMode_phase (m : Bool) (s : State) : (setReplyMode m s).phase = s.phase := rfl
@[simp] theorem setReplyMode_txidx (m : Bool) (s : State) : (setReplyMode m s).txidx = s.txidx := rfl
@[simp] theorem setReplyMode_rxidx (m : Bool) (s : State) : (setReplyMode m s).rxidx = s.rxidx := rfl
@[simp] theorem setReplyMode_cmdId (m : Bool) (s : State) : (setReplyMode m s).cmdId = s.cmdId := rfl
@[simp] theorem setReplyMode_arg (m : Bool) (s : State) : (setReplyMode m s).arg = s.arg := rfl
@[simp] theorem setReplyMode_toCnt (m : Bool) (s : State) : (setReplyMode m s).toCnt = s.toCnt := rfl
@[simp] theorem setReplyMode_res (m : Bool) (s : State) : (setReplyMode m s).res = some (bareResult .okVoid) := rfl
@[simp] theorem setReplyMode_wire (m : Bool) (s : State) : (setReplyMode m s).wire = s.wire := rfl
@[simp] theorem setReplyMode_inputs (m : Bool) (s : State) : (setReplyMode m s).inputs = s.inputs := rfl
@[simp] theorem setReplyMode_clock (m : Bool) (s : State) : (setReplyMode m s).clock = s.clock := rfl

@[simp] theorem beginSend_isReply (s : State) : (beginSend s).isReply = s.isReply := rfl
@[simp] theorem beginSend_txbuf (s : State) : (beginSend s).txbuf = s.txbuf := rfl
@[simp] theorem beginSend_rxbuf (s : State) : (beginSend s).rxbuf = s.rxbuf := rfl
@[simp] theorem beginSend_phase (s : State) : (beginSend s).phase = .send := rfl
@[simp] theorem beginSend_txidx (s : State) : (beginSend s).txidx = 0 := rfl
@[simp] theorem beginSend_rxidx (s : State) : (beginSend s).rxidx = s.rxidx := rfl
@[simp] theorem beginSend_cmdId (s : State) : (beginSend s).cmdId = s.cmdId := rfl
@[simp] theorem beginSend_arg (s : State) : (beginSend s).arg = s.arg := rfl
@[simp] theorem beginSend_toCnt (s : State) : (beginSend s).toCnt = s.toCnt := rfl
@[simp] theorem beginSend_res (s : State) : (beginSend s).res = s.res := rfl
@[simp] theorem beginSend_wire (s : State) : (beginSend s).wire = s.wire := rfl
@[simp] theorem beginSend_inputs (s : State) : (beginSend s).inputs = s.inputs := rfl
@[simp] theorem beginSend_clock (s : State) : (beginSend s).clock = s.clock := rfl

@[simp] theorem beginReceive_isReply (c : Cfg) (s : State) : (beginReceive c s).isReply = s.isReply := rfl
@[simp] theorem beginReceive_txbuf (c : Cfg) (s : State) : (beginReceive c s).txbuf = s.txbuf := rfl
@[simp] theorem beginReceive_rxbuf (c : Cfg) (s : State) : (beginReceive c s).rxbuf = s.rxbuf := rfl
@[simp] theorem beginReceive_phase (c : Cfg) (s : State) : (beginReceive c s).phase = .recv := rfl
@[simp] theorem beginReceive_txidx (c : Cfg) (s : State) : (beginReceive c s).txidx = s.txidx := rfl
@[simp] theorem beginReceive_rxidx (c : Cfg) (s : State) : (beginReceive c s).rxidx = 0 := rfl
@[simp] theorem beginReceive_cmdId (c : Cfg) (s : State) : (beginReceive c s).cmdId = s.cmdId := rfl
@[simp] theorem beginReceive_arg (c : Cfg) (s : State) : (beginReceive c s).arg = s.arg := rfl
@[simp] theorem beginReceive_toCnt (c : Cfg) (s : State) : (beginReceive c s).toCnt = c.tTicks := rfl
@[simp] theorem beginReceive_res (c : Cfg) (s : State) : (beginReceive c s).res = s.res := rfl
@[simp] theorem beginReceive_wire (c : Cfg) (s : State) : (beginReceive c s).wire = s.wire := rfl
@[simp] theorem beginReceive_inputs (c : Cfg) (s : State) : (beginReceive c s).inputs = s.inputs := rfl
@[simp] theorem beginReceive_clock (c : Cfg) (s : State) : (beginReceive c s).clock = s.clock := rfl

@[simp] theorem emit_isReply (b : Byte) (s : State) : (emit b s).isReply = s.isReply := rfl
@[simp] theorem emit_txbuf (b : Byte) (s : State) : (emit b s).txbuf = s.txbuf := rfl
@[simp] theorem emit_rxbuf (b : Byte) (s : State) : (emit b s).rxbuf = s.rxbuf := rfl
@[simp] theorem emit_phase (b : Byte) (s : State) : (emit b s).phase = s.phase := rfl
@[simp] theorem emit_txidx (b : Byte) (s : State) : (emit b s).txidx = s.txidx := rfl
@[simp] theorem emit_rxidx (b : Byte) (s : State) : (emit b s).rxidx = s.rxidx := rfl
@[simp] theorem emit_cmdId (b : Byte) (s : State) : (emit b s).cmdId = s.cmdId := rfl
@[simp] theorem emit_arg (b : Byte) (s : State) : (emit b s).arg = s.arg := rfl
@[simp] theorem emit_toCnt (b : Byte) (s : State) : (emit b s).toCnt = s.toCnt := rfl
@[simp] theorem emit_res (b : Byte) (s : State) : (emit b s).res = s.res := rfl
@[simp] theorem emit_wire (b : Byte) (s : State) : (emit b s).wire = s.wire ++ [b] := rfl
@[simp] theorem emit_inputs (b : Byte) (s : State) : (emit b s).inputs = s.inputs := rfl
@[simp] theorem emit_clock (b : Byte) (s : State) : (emit b s).clock = s.clock := rfl

@[simp] theorem build_isReply (c : Cfg) (op : Byte) (ack : Bool) (arg : U16) (s : State) : (build c op ack arg s).isReply = s.isReply := rfl
@[simp] theorem build_txbuf (c : Cfg) (op : Byte) (ack : Bool) (arg : U16) (s : State) : (build c op ack arg s).txbuf = buildFn c op ack arg := rfl
@[simp] theorem build_rxbuf (c : Cfg) (op : Byte) (ack : Bool) (arg : U16) (s : State) : (build c op ack arg s).rxbuf = s.rxbuf := rfl
@[simp] theorem build_phase (c : Cfg) (op : Byte) (ack : Bool) (arg : U16) (s : State) : (build c op ack arg s).phase = s.phase := rfl
@[simp] theorem build_txidx (c : Cfg) (op : Byte) (ack : Bool) (arg : U16) (s : State) : (build c op ack arg s).txidx = s.txidx := rfl
@[simp] theorem build_rxidx (c : Cfg) (op : Byte) (ack : Bool) (arg : U16) (s : State) : (build c op ack arg s).rxidx = s.rxidx := rfl
@[simp] theorem build_cmdId (c : Cfg) (op : Byte) (ack : Bool) (arg : U16) (s : State) : (build c op ack arg s).cmdId = s.cmdId := rfl
@[simp] theorem build_arg (c : Cfg) (op : Byte) (ack : Bool) (arg : U16) (s : State) : (build c op ack arg s).arg = s.arg := rfl
@[simp] theorem build_toCnt (c : Cfg) (op : Byte) (ack : Bool) (arg : U16) (s : State) : (build c op ack arg s).toCnt = s.toCnt := rfl
@[simp] theorem build_res (c : Cfg) (op : Byte) (ack : Bool) (arg : U16) (s : State) : (build c op ack arg s).res = s.res := rfl
@[simp] theorem build_wire (c : Cfg) (op : Byte) (ack : Bool) (arg : U16) (s : State) : (build c op ack arg s).wire = s.wire := rfl
@[simp] theorem build_inputs (c : Cfg) (op : Byte) (ack : Bool) (arg : U16) (s : State) : (build c op ack arg s).inputs = s.inputs := rfl
@[simp] theorem build_clock (c : Cfg) (op : Byte) (ack : Bool) (arg : U16) (s : State) : (build c op ack arg s).clock = s.clock := rfl

@[simp] theorem resetBlock_isReply (s : State) : (resetBlock s).isReply = false := rfl
@[simp] theorem resetBlock_txbuf (s : State) : (resetBlock s).txbuf = unspecifiedBuffer s.clock 0 := rfl
@[simp] theorem resetBlock_rxbuf (s : State) : (resetBlock s).rxbuf = unspecifiedBuffer s.clock 10 := rfl
@[simp] theorem resetBlock_phase (s : State) : (resetBlock s).phase = .idle := rfl
@[simp] theorem resetBlock_txidx (s : State) : (resetBlock s).txidx = 0 := rfl
@[simp] theorem resetBlock_rxidx (s : State) : (resetBlock s).rxidx = 0 := rfl
@[simp] theorem resetBlock_cmdId (s : State) : (resetBlock s).cmdId = 0 := rfl
@[simp] theorem resetBlock_arg (s : State) : (resetBlock s).arg = 0 := rfl
@[simp] theorem resetBlock_toCnt (s : State) : (resetBlock s).toCnt = 0 := rfl
@[simp] theorem resetBlock_res (s : State) : (resetBlock s).res = none := rfl
@[simp] theorem resetBlock_wire (s : State) : (resetBlock s).wire = s.wire := rfl
@[simp] theorem resetBlock_inputs (s : State) : (resetBlock s).inputs = s.inputs := rfl
@[simp] theorem resetBlock_clock (s : State) : (resetBlock s).clock = s.clock := rfl

end Sys2Proof.Machine
end

