-- ==== Sys2Proof/Laws/Transceiver.lean ====
section
/-! SUPPORT. What each step of the transceiver control and each way of completing can do, said once. -/

namespace Sys2Proof.Machine

/-- The ten bytes of a buffer, one by one. -/
theorem frame_toList (f : Frame) :
    f.toList = [f[0], f[1], f[2], f[3], f[4], f[5], f[6], f[7], f[8], f[9]] := by
  apply List.ext_getElem
  · simp
  · intro i h1 h2
    have hi : i < 10 := by simpa using h1
    interval_cases i <;> rfl

/-- `Parse` on the ten bytes of a buffer: the checks of R150 without the one on the length. -/
theorem parse_frame (c : Cfg) (f : Frame) :
    parse c f.toList =
      if f[0] ≠ c.start then .error .badStartMarker
      else if f[9] ≠ c.endMark then .error .badEndMarker
      else if cat f[7] f[8] ≠ neg16 (sum6 f) then .error .checksumMismatch
      else .decoded (classify c f[3]) f[3] (cat f[5] f[6]) := by
  simp only [parse, frameOfBytes_toList]

/-- A command completed by its reply is `IDLE` with a result, a decoded reply or one of the three protocol errors that ten
bytes can give (R130, R162). -/
theorem completeReply_spec (c : Cfg) (s : State) :
    (∃ cmd value, completeReply c s = complete ⟨.okReply, classify c cmd, cmd, value⟩ s) ∨
      completeReply c s = raise .protoBadStart s ∨ completeReply c s = raise .protoBadEnd s ∨
      completeReply c s = raise .protoChecksum s := by
  simp only [completeReply, parse_frame]
  by_cases h0 : s.rxbuf[0] = c.start
  · by_cases h9 : s.rxbuf[9] = c.endMark
    · by_cases hc : cat s.rxbuf[7] s.rxbuf[8] = neg16 (sum6 s.rxbuf)
      · exact .inl ⟨s.rxbuf[3], cat s.rxbuf[5] s.rxbuf[6], by simp [h0, h9, hc]⟩
      · exact .inr (.inr (.inr (by simp [h0, h9, hc, protoStatus])))
    · exact .inr (.inr (.inl (by simp [h0, h9, protoStatus])))
  · exact .inr (.inl (by simp [h0, protoStatus]))

/-- The completion by a reply row: nothing outside the step of the tenth byte, else the reply or `PROTO_CHECKSUM`. -/
theorem completeAs_spec (cmd : Byte) (kind : Kind) (r : ReplyFields) (s : State) :
    (¬(s.phase = .recv ∧ s.rxidx = 9) ∧ completeAs cmd kind r s = s) ∨
      ((s.phase = .recv ∧ s.rxidx = 9) ∧ r.checksumValid cmd = true ∧
        completeAs cmd kind r s = complete ⟨.okReply, kind, cmd, r.value⟩ s) ∨
      ((s.phase = .recv ∧ s.rxidx = 9) ∧ r.checksumValid cmd = false ∧
        completeAs cmd kind r s = raise .protoChecksum s) := by
  by_cases h : s.phase = .recv ∧ s.rxidx = 9
  · cases hv : r.checksumValid cmd
    · exact .inr (.inr ⟨h, rfl, by simp_all [completeAs, ReplyFields.checksumValid]⟩)
    · exact .inr (.inl ⟨h, rfl, by simp_all [completeAs, ReplyFields.checksumValid]⟩)
  · exact .inl ⟨h, by simp only [completeAs, if_neg h]⟩

/-- `expects_reply` in the numbers of R182. -/
theorem expectsReply_iff (id : CmdId) (m : Bool) :
    expectsReply id m = true ↔ (15 ≤ id.toNat ∧ id.toNat ≤ 22) ∨ m = true := by
  simp [expectsReply, isQuery]

theorem endOfSend_spec (c : Cfg) (s : State) :
    (expectsReply s.cmdId s.isReply = true ∧ endOfSend c s = beginReceive c s) ∨
      (expectsReply s.cmdId s.isReply = false ∧ endOfSend c s = completeVoid s) := by
  cases h : expectsReply s.cmdId s.isReply <;> simp [endOfSend, h]

/-- What `TxAccept` can do when it gives a next state (R122). -/
theorem txAccept_spec {c : Cfg} {s t : State} (h : txAccept c s = .next t) :
    (s.phase ≠ .send ∧ t = s) ∨
      (s.phase = .send ∧ ∃ b, memRead s.txbuf s.txidx.toNat = some b ∧
        ((s.txidx.toNat < 9 ∧ t = { emit b s with txidx := s.txidx + 1 }) ∨
          (¬ s.txidx.toNat < 9 ∧ t = endOfSend c (emit b s)))) := by
  unfold txAccept at h
  split at h
  · rename_i hp
    split at h
    · cases h
    · rename_i b hb
      refine .inr ⟨hp, b, hb, ?_⟩
      split at h
      · rename_i hlt
        exact .inl ⟨hlt, by injection h with h; exact h.symm⟩
      · rename_i hlt
        exact .inr ⟨hlt, by injection h with h; exact h.symm⟩
  · rename_i hp
    exact .inl ⟨by simp [hp], by injection h with h; exact h.symm⟩
  · rename_i hp
    exact .inl ⟨by simp [hp], by injection h with h; exact h.symm⟩

/-- A transmit step stops only for a `TXIDX` that no buffer has (log 8). -/
theorem txAccept_next {c : Cfg} {s : State} (h : s.phase = .send → s.txidx.toNat ≤ 9) : ∃ t, txAccept c s = .next t := by
  unfold txAccept
  split
  · rename_i hp
    rw [memRead_of_lt _ _ (Nat.lt_succ_of_le (h hp))]
    dsimp only
    split <;> exact ⟨_, rfl⟩
  · exact ⟨_, rfl⟩
  · exact ⟨_, rfl⟩

/-- What the transfer at the transmit port can do (R32): in `SEND` a ready channel takes the byte on offer; else nothing. -/
theorem handOver_spec (ready : Bool) (s : State) :
    (s.phase = .send ∧ ready = true ∧ ∃ b, memRead s.txbuf s.txidx.toNat = some b ∧ handOver ready s = emit b s) ∨
      ((s.phase = .send → ready = true → memRead s.txbuf s.txidx.toNat = none) ∧ handOver ready s = s) := by
  cases h : s.phase <;> cases ready <;> cases hm : memRead s.txbuf s.txidx.toNat <;> simp [handOver, h, hm]

/-- The transfer at the transmit port changes the wire and nothing else. -/
theorem handOver_frame (ready : Bool) (s : State) : handOver ready s = { s with wire := (handOver ready s).wire } := by
  rcases handOver_spec ready s with ⟨-, -, b, -, h⟩ | ⟨-, h⟩ <;> simp only [h, emit]

@[simp] theorem handOver_inputs (ready : Bool) (s : State) : (handOver ready s).inputs = s.inputs := by
  rw [handOver_frame]

@[simp] theorem handOver_clock (ready : Bool) (s : State) : (handOver ready s).clock = s.clock := by
  rw [handOver_frame]

/-- The store of a receive step writes the byte at `RXIDX` and nothing else (R126). -/
theorem storeReceived_spec {b : Byte} {s t : State} (h : storeReceived b s = some t) :
    ∃ buf, memWrite s.rxbuf s.rxidx.toNat b = some buf ∧ t = { s with rxbuf := buf } := by
  simp only [storeReceived, Option.map_eq_some_iff] at h
  obtain ⟨buf, h1, rfl⟩ := h
  exact ⟨buf, h1, rfl⟩

theorem storeReceived_of_le {b : Byte} {s : State} (h : s.rxidx.toNat ≤ 9) :
    storeReceived b s = some { s with rxbuf := s.rxbuf.set s.rxidx.toNat b (Nat.lt_succ_of_le h) } := by
  simp only [storeReceived, memWrite_of_lt _ _ _ (Nat.lt_succ_of_le h), Option.map_some]

/-- What `RxByte` can do when it gives a next state (R126, R127). -/
theorem rxByte_spec {c : Cfg} {b : Byte} {s t : State} (h : rxByte c b s = .next t) :
    (s.phase ≠ .recv ∧ t = s) ∨
      (s.phase = .recv ∧ ∃ u, storeReceived b s = some u ∧
        ((s.rxidx.toNat < 9 ∧ t = { u with rxidx := s.rxidx + 1 }) ∨
          (¬ s.rxidx.toNat < 9 ∧ t = completeReply c u))) := by
  unfold rxByte at h
  split at h
  · rename_i hp
    split at h
    · cases h
    · rename_i u hu
      refine .inr ⟨hp, u, hu, ?_⟩
      split at h
      · rename_i hlt
        exact .inl ⟨hlt, by injection h with h; exact h.symm⟩
      · rename_i hlt
        exact .inr ⟨hlt, by injection h with h; exact h.symm⟩
  · rename_i hp
    exact .inl ⟨by simp [hp], by injection h with h; exact h.symm⟩
  · rename_i hp
    exact .inl ⟨by simp [hp], by injection h with h; exact h.symm⟩

/-- What `RxFault` does (R128). -/
theorem rxFault_spec (s : State) :
    (s.phase ≠ .recv ∧ rxFault s = s) ∨ (s.phase = .recv ∧ rxFault s = raise .linkError s) := by
  cases h : s.phase <;> simp [rxFault, h]

/-- What a tick does (R129). -/
theorem tick_spec (s : State) :
    (s.phase ≠ .recv ∧ tick s = s) ∨
      (s.phase = .recv ∧ 1 < s.toCnt ∧ tick s = { s with toCnt := s.toCnt - 1 }) ∨
      (s.phase = .recv ∧ s.toCnt ≤ 1 ∧ tick s = raise .timeoutError s) := by
  cases h : s.phase
  · simp [tick, h]
  · simp [tick, h]
  · by_cases ht : 1 < s.toCnt
    · simp [tick, h, ht]
    · simp [tick, h, ht]
      omega

end Sys2Proof.Machine
end

