-- ==== Sys2Proof/Laws/Decode.lean ====
section
/-! SUPPORT. The reply decoder on a frame and on anything else. -/

namespace Sys2Proof

open Machine

@[simp] theorem decodeIn_commandWord (c : Cfg) (w : CmdWord) : decodeIn c (.commandWord w) = decodeCommand w := rfl
@[simp] theorem decodeIn_replyBytes (c : Cfg) (bs : List Byte) : decodeIn c (.replyBytes bs) = decodeReply c bs := rfl
@[simp] theorem decode_commandWord (w : CmdWord) : decode (.commandWord w) = decodeCommand w := rfl
@[simp] theorem decode_replyBytes (bs : List Byte) : decode (.replyBytes bs) = decodeReply cfg bs := rfl

/-- A frame is decoded by its markers and its command byte; every other byte is a field (R71). -/
theorem decodeReply_frame (c : Cfg) (f : Frame) :
    decodeReply c f.toList =
      if f[0] ≠ c.start then .error .badStartMarker
      else if f[9] ≠ c.endMark then .error .badEndMarker
      else decodeReplyByte c f[3] ⟨f[1], f[2], f[4], cat f[5] f[6], cat f[7] f[8]⟩ := by
  simp only [decodeReply, frameOfBytes_toList]

/-- What decodes to a reply: a frame with the right markers whose command byte is a row's. -/
theorem decodeReply_spec {c : Cfg} {bs : List Byte} {i : Instr} (h : decodeReply c bs = .ok i) :
    ∃ f : Frame, bs = f.toList ∧ f[0] = c.start ∧ f[9] = c.endMark ∧
      decodeReplyByte c f[3] ⟨f[1], f[2], f[4], cat f[5] f[6], cat f[7] f[8]⟩ = .ok i := by
  unfold decodeReply at h
  split at h
  · cases h
  · rename_i f hf
    split_ifs at h with h0 h9
    exact ⟨f, frameOfBytes_eq_some hf, by simpa using h0, by simpa using h9, h⟩

/-- The row that a command byte selects, and the byte each row has (R156). -/
theorem decodeReplyByte_spec {c : Cfg} {m : Byte} {r : ReplyFields} {i : Instr} (h : decodeReplyByte c m r = .ok i) :
    (m = c.ropcAck ∧ i = .replyAck r) ∨ (m = c.ropcError ∧ i = .replyPeriphError r) ∨
      (m = c.ropcMedia ∧ i = .replyMediaPresent r) ∨ (m = c.opc .getState ∧ i = .replyPlayState r) ∨
      (m = c.opc .getVolume ∧ i = .replyVolume r) ∨ (m = c.opc .getUsbCount ∧ i = .replyCountUsb r) ∨
      (m = c.opc .getSdCount ∧ i = .replyCountSd r) ∨ (m = c.opc .getFlashCount ∧ i = .replyCountFlash r) ∨
      (m = c.opc .getCurUsb ∧ i = .replyCurUsb r) ∨ (m = c.opc .getCurSd ∧ i = .replyCurSd r) ∨
      (m = c.opc .getCurFlash ∧ i = .replyCurFlash r) := by
  unfold decodeReplyByte at h
  split at h
  · rename_i hm
    exact .inl ⟨hm, (Except.ok.inj h).symm⟩
  split at h
  · rename_i hm
    exact .inr (.inl ⟨hm, (Except.ok.inj h).symm⟩)
  split at h
  · rename_i hm
    exact .inr (.inr (.inl ⟨hm, (Except.ok.inj h).symm⟩))
  split at h
  · rename_i hm
    exact .inr (.inr (.inr (.inl ⟨hm, (Except.ok.inj h).symm⟩)))
  split at h
  · rename_i hm
    exact .inr (.inr (.inr (.inr (.inl ⟨hm, (Except.ok.inj h).symm⟩))))
  split at h
  · rename_i hm
    exact .inr (.inr (.inr (.inr (.inr (.inl ⟨hm, (Except.ok.inj h).symm⟩)))))
  split at h
  · rename_i hm
    exact .inr (.inr (.inr (.inr (.inr (.inr (.inl ⟨hm, (Except.ok.inj h).symm⟩))))))
  split at h
  · rename_i hm
    exact .inr (.inr (.inr (.inr (.inr (.inr (.inr (.inl ⟨hm, (Except.ok.inj h).symm⟩)))))))
  split at h
  · rename_i hm
    exact .inr (.inr (.inr (.inr (.inr (.inr (.inr (.inr (.inl ⟨hm, (Except.ok.inj h).symm⟩))))))))
  split at h
  · rename_i hm
    exact .inr (.inr (.inr (.inr (.inr (.inr (.inr (.inr (.inr (.inl ⟨hm, (Except.ok.inj h).symm⟩)))))))))
  split at h
  · rename_i hm
    exact .inr (.inr (.inr (.inr (.inr (.inr (.inr (.inr (.inr (.inr (⟨hm, (Except.ok.inj h).symm⟩))))))))))
  cases h

end Sys2Proof
end

