-- ==== Sys2Proof/Laws/Mapper.lean ====
section
/-! SUPPORT. What the acceptance step can do, said once, and that a decoded command is its acceptance step. -/

namespace Sys2Proof.Machine

/-- What `Accept(id, a)` does (R180): nothing while busy; else the local command, a rejection, or the build and the entry
to `SEND`. -/
theorem accept_spec (c : Cfg) (id : CmdId) (a : U16) (s : State) :
    (s.phase ≠ .idle ∧ accept c id a s = s) ∨
      (s.phase = .idle ∧ classOfId id = .replyMode ∧ accept c id a s = setReplyMode (boolArg a) (latch id a s)) ∨
      (s.phase = .idle ∧ (classOfId id = .reserved ∨ ∃ t, classOfId id = .transmit t ∧ argLegal c t a = false) ∧
        accept c id a s = raise .invalidArgument (latch id a s)) ∨
      (s.phase = .idle ∧ ∃ t, classOfId id = .transmit t ∧ argLegal c t a = true ∧
        accept c id a s = beginSend (build c (c.opc t) s.isReply (frameArg t a) (latch id a s))) := by
  cases hp : s.phase
  · simp only [accept, hp]
    cases hc : classOfId id with
    | reserved => simp
    | replyMode => simp
    | transmit t => cases hl : argLegal c t a <;> simp [hl]
  · simp [accept, hp]
  · simp [accept, hp]

@[simp] theorem classOfId_idOfCmd (t : TxCmd) : classOfId (idOfCmd t) = .transmit t := by
  cases t <;> rfl

theorem classOfId_eq_transmit {id : CmdId} {t : TxCmd} (h : classOfId id = .transmit t) : id = idOfCmd t := by
  revert h
  revert id
  cases t <;> decide

theorem classOfId_eq_replyMode {id : CmdId} (h : classOfId id = .replyMode) : id = 23 := by
  revert h
  revert id
  decide

theorem classOfId_eq_reserved {id : CmdId} : classOfId id = .reserved ↔ 24 ≤ id.toNat := by
  revert id
  decide

/-- `exec` is the meaning of every instruction in the configuration of this hardware (R8). -/
theorem exec_eq_execIn : exec = execIn cfg := by
  funext i s
  cases i <;> rfl

/-- A command that decodes is the acceptance step of its identifier and operand, in every configuration (R72, R180). -/
theorem execIn_of_decodeCommand (c : Cfg) {w : CmdWord} {i : Instr} (h : decodeCommand w = .ok i) (s : State) :
    execIn c i s = .next (accept c (wordId w) (wordArg w) s) := by
  unfold decodeCommand at h
  cases hc : classOfId (wordId w) with
  | reserved => simp [hc] at h
  | replyMode =>
    simp only [hc] at h
    injection h with h
    subst h
    rw [classOfId_eq_replyMode hc]
    rfl
  | transmit t =>
    rw [classOfId_eq_transmit hc]
    cases t <;> simp only [hc] at h <;> injection h with h <;> subst h <;> rfl

/-- A command that decodes is the acceptance step of its identifier and operand (R72, R180). -/
theorem exec_of_decodeCommand {w : CmdWord} {i : Instr} (h : decodeCommand w = .ok i) (s : State) :
    exec i s = .next (accept cfg (wordId w) (wordArg w) s) := by
  rw [exec_eq_execIn, execIn_of_decodeCommand cfg h]

/-- Whatever is presented, what happens is the acceptance step (R180). -/
theorem takeCommand_eq (c : Cfg) (id : CmdId) (a : U16) (s : State) :
    takeCommand c (execIn c) id a s = .next (accept c id a s) := by
  unfold takeCommand
  split
  · rename_i i h
    simpa using execIn_of_decodeCommand c h s
  · rfl

end Sys2Proof.Machine
end

