-- ==== Sys2Proof/Laws/Cycle.lean ====
section
/-! SUPPORT. What a clock cycle can do, said once, by the phase at its start. -/

namespace Sys2Proof.Machine

theorem step_eq (s : State) : step s = cycle (pins s) (edge s) := rfl

section
variable (s : State)
@[simp] theorem edge_isReply : (edge s).isReply = s.isReply := rfl
@[simp] theorem edge_txbuf : (edge s).txbuf = s.txbuf := rfl
@[simp] theorem edge_rxbuf : (edge s).rxbuf = s.rxbuf := rfl
@[simp] theorem edge_phase : (edge s).phase = s.phase := rfl
@[simp] theorem edge_txidx : (edge s).txidx = s.txidx := rfl
@[simp] theorem edge_rxidx : (edge s).rxidx = s.rxidx := rfl
@[simp] theorem edge_cmdId : (edge s).cmdId = s.cmdId := rfl
@[simp] theorem edge_arg : (edge s).arg = s.arg := rfl
@[simp] theorem edge_toCnt : (edge s).toCnt = s.toCnt := rfl
@[simp] theorem edge_res : (edge s).res = s.res := rfl
@[simp] theorem edge_wire : (edge s).wire = s.wire := rfl
@[simp] theorem edge_inputs : (edge s).inputs = s.inputs.tail := rfl
@[simp] theorem edge_clock : (edge s).clock = s.clock + 1 := rfl
end

/-- The step of this hardware is the step of its configuration (R8). -/
theorem step_eq_stepIn : step = stepIn cfg := by
  funext s
  simp only [step_eq, cycle, stepIn, exec_eq_execIn]

/-- A reset cycle (R33, R260). -/
theorem cycleIn_rst (c : Cfg) (run : Instr → State → StepOutcome) {p : InPins} (h : p.rst = true) (s : State) :
    cycleIn c run p s = .next (resetBlock (handOver p.txReady s)) := by
  simp [cycleIn, h]

/-- A cycle that begins in `IDLE` accepts a command or does nothing (R30, R133). -/
theorem cycleIn_idle (c : Cfg) {p : InPins} {s : State} (hr : p.rst = false) (hp : s.phase = .idle) :
    cycleIn c (execIn c) p s = .next (if p.cmdValid then accept c p.cmdId p.cmdArg s else s) := by
  cases hv : p.cmdValid <;> simp [cycleIn, hr, hp, hv, takeCommand_eq]

/-- A cycle that begins in `SEND` is a transmit step or nothing (R122, R132). -/
theorem cycleIn_send (c : Cfg) (run : Instr → State → StepOutcome) {p : InPins} {s : State} (hr : p.rst = false)
    (hp : s.phase = .send) : cycleIn c run p s = if p.txReady then txAccept c s else .next s := by
  simp [cycleIn, hr, hp]

/-- A cycle that begins in `RECV` (R134). -/
theorem cycleIn_recv (c : Cfg) (run : Instr → State → StepOutcome) {p : InPins} {s : State} (hr : p.rst = false)
    (hp : s.phase = .recv) : cycleIn c run p s = recvCycle c run p s := by
  simp [cycleIn, hr, hp]

theorem cycle_rst {p : InPins} (h : p.rst = true) (s : State) :
    cycle p s = .next (resetBlock (handOver p.txReady s)) := cycleIn_rst _ _ h s

theorem cycle_idle {p : InPins} {s : State} (hr : p.rst = false) (hp : s.phase = .idle) :
    cycle p s = .next (if p.cmdValid then accept cfg p.cmdId p.cmdArg s else s) := by
  rw [cycle, exec_eq_execIn, cycleIn_idle cfg hr hp]

theorem cycle_send {p : InPins} {s : State} (hr : p.rst = false) (hp : s.phase = .send) :
    cycle p s = if p.txReady then txAccept cfg s else .next s := cycleIn_send _ _ hr hp

theorem cycle_recv {p : InPins} {s : State} (hr : p.rst = false) (hp : s.phase = .recv) :
    cycle p s = recvCycle cfg exec p s := cycleIn_recv _ _ hr hp

/-- A reply row that a command byte selects is the completion by that byte with its kind, in every configuration (R130, R156). -/
theorem execIn_of_decodeReplyByte {c : Cfg} {m : Byte} {r : ReplyFields} {i : Instr} (h : decodeReplyByte c m r = .ok i)
    (s : State) : execIn c i s = .next (completeAs m (classify c m) r s) := by
  unfold decodeReplyByte at h
  unfold classify
  iterate 11
    split at h
    · rename_i hm
      obtain rfl := Except.ok.inj h
      rw [if_pos hm, hm]
      rfl
    rename_i hm
    rw [if_neg hm]
  cases h

/-- Decoding the ten bytes and executing the reply row is `complete_reply`, for rows and for frames that are none (R130),
in every configuration. -/
theorem takeReplyIn_eq (c : Cfg) {s : State} (hp : s.phase = .recv) (hx : s.rxidx = 9) :
    takeReply c (execIn c) s = .next (completeReply c s) := by
  unfold takeReply
  split
  · rename_i i h
    obtain ⟨f, hf, h0, h9, h⟩ := decodeReply_spec h
    obtain rfl : s.rxbuf = f := Vector.toList_inj.mp hf
    rw [execIn_of_decodeReplyByte h]
    simp only [completeReply, parse_frame, h0, h9, completeAs, hp, hx, hi_cat, lo_cat]
    by_cases hc : cat s.rxbuf[7] s.rxbuf[8] = neg16 (sum6 s.rxbuf)
    · have hc' := hc
      simp only [sum6] at hc'
      rw [if_pos ⟨trivial, trivial⟩, if_pos hc', if_neg (by simp), if_neg (by simp), if_neg (by simp [hc])]
    · have hc' := hc
      simp only [sum6] at hc'
      rw [if_pos ⟨trivial, trivial⟩, if_neg hc', if_neg (by simp), if_neg (by simp), if_pos hc]
      rfl
  · rfl

theorem takeReply_eq {s : State} (hp : s.phase = .recv) (hx : s.rxidx = 9) :
    takeReply cfg exec s = .next (completeReply cfg s) := by
  rw [exec_eq_execIn, takeReplyIn_eq cfg hp hx]

/-- In `RECV`, a byte taken is the receive step `RxByte` (R126, R127), in every configuration. -/
theorem takeByteIn_eq (c : Cfg) (b : Byte) {s : State} (hp : s.phase = .recv) :
    takeByte c (execIn c) b s = rxByte c b s := by
  unfold takeByte rxByte
  rw [hp]
  cases hs : storeReceived b s with
  | none => rfl
  | some t =>
    dsimp only
    obtain ⟨buf, hw, rfl⟩ := storeReceived_spec hs
    have h10 : s.rxidx.toNat < 10 := (memWrite_spec hw).1
    split
    · rfl
    · refine takeReplyIn_eq c hp (BitVec.eq_of_toNat_eq ?_)
      show s.rxidx.toNat = 9
      omega

theorem takeByte_eq (b : Byte) {s : State} (hp : s.phase = .recv) : takeByte cfg exec b s = rxByte cfg b s := by
  rw [exec_eq_execIn, takeByteIn_eq cfg b hp]

theorem tick_off {s : State} (h : s.phase ≠ .recv) : tick s = s := by
  rcases tick_spec s with ⟨-, h'⟩ | ⟨h', -⟩ | ⟨h', -⟩
  · exact h'
  · exact absurd h' h
  · exact absurd h' h

/-- A tick after a byte that ended the command has no effect (R129, R134). -/
theorem thenTick_off {on : Bool} {s : State} (h : s.phase ≠ .recv) : thenTick on (.next s) = .next s := by
  cases on <;> simp [thenTick, tick_off h]

/-- What a step can do when it gives a next state, in every configuration: a reset after the transfer at the transmit port,
nothing but the clock edge, or the one transfer step that the phase at its start allows. -/
theorem stepIn_cases {c : Cfg} {s t : State} (h : stepIn c s = .next t) :
    ((pins s).rst = true ∧ t = resetBlock (handOver (pins s).txReady (edge s))) ∨
    ((pins s).rst = false ∧
      ((t = edge s ∧ (s.phase = .idle ∧ (pins s).cmdValid = false ∨ s.phase = .send ∧ (pins s).txReady = false ∨
        s.phase = .recv ∧ (pins s).rxFault = false ∧ (pins s).rxValid = false ∧ (pins s).tick = false)) ∨
      (s.phase = .idle ∧ (pins s).cmdValid = true ∧ t = accept c (pins s).cmdId (pins s).cmdArg (edge s)) ∨
      (s.phase = .send ∧ (pins s).txReady = true ∧ txAccept c (edge s) = .next t) ∨
      (s.phase = .recv ∧ (pins s).rxFault = true ∧ t = rxFault (edge s)) ∨
      (s.phase = .recv ∧ (pins s).rxFault = false ∧ (pins s).rxValid = true ∧
        ∃ u, rxByte c (pins s).rxData (edge s) = .next u ∧
          ((pins s).tick = false ∧ t = u ∨ (pins s).tick = true ∧ t = tick u)) ∨
      (s.phase = .recv ∧ (pins s).rxFault = false ∧ (pins s).rxValid = false ∧ (pins s).tick = true ∧
        t = tick (edge s)))) := by
  unfold stepIn at h
  cases hr : (pins s).rst
  · refine .inr ⟨rfl, ?_⟩
    cases hp : s.phase
    · rw [cycleIn_idle c (s := edge s) hr hp] at h
      injection h with h
      split at h
      · exact .inr (.inl ⟨rfl, by assumption, h.symm⟩)
      · rename_i hv
        exact .inl ⟨h.symm, .inl ⟨rfl, by simpa using hv⟩⟩
    · rw [cycleIn_send c _ (s := edge s) hr hp] at h
      split at h
      · exact .inr (.inr (.inl ⟨rfl, by assumption, h⟩))
      · rename_i ht
        injection h with h
        exact .inl ⟨h.symm, .inr (.inl ⟨rfl, by simpa using ht⟩)⟩
    · rw [cycleIn_recv c _ (s := edge s) hr hp] at h
      unfold recvCycle at h
      split at h
      · injection h with h
        exact .inr (.inr (.inr (.inl ⟨rfl, by assumption, h.symm⟩)))
      · rename_i hf
        split at h
        · rename_i hv
          rw [takeByteIn_eq c _ (s := edge s) hp] at h
          cases hb : rxByte c (pins s).rxData (edge s) with
          | next u =>
            rw [hb] at h
            simp only [thenTick] at h
            injection h with h
            refine .inr (.inr (.inr (.inr (.inl ⟨rfl, by simpa using hf, hv, u, rfl, ?_⟩))))
            split at h
            · exact .inr ⟨by assumption, h.symm⟩
            · rename_i ht
              exact .inl ⟨by simpa using ht, h.symm⟩
          | fault =>
            rw [hb] at h
            cases h
          | refused =>
            rw [hb] at h
            cases h
        · rename_i hv
          injection h with h
          split at h
          · exact .inr (.inr (.inr (.inr (.inr
              ⟨rfl, by simpa using hf, by simpa using hv, by assumption, h.symm⟩))))
          · rename_i ht
            exact .inl ⟨h.symm, .inr (.inr ⟨rfl, by simpa using hf, by simpa using hv, by simpa using ht⟩)⟩
  · rw [cycleIn_rst c _ hr] at h
    injection h with h
    exact .inl ⟨rfl, h.symm⟩

/-- What a step of this hardware can do when it gives a next state. -/
theorem step_cases {s t : State} (h : step s = .next t) :
    ((pins s).rst = true ∧ t = resetBlock (handOver (pins s).txReady (edge s))) ∨
    ((pins s).rst = false ∧
      ((t = edge s ∧ (s.phase = .idle ∧ (pins s).cmdValid = false ∨ s.phase = .send ∧ (pins s).txReady = false ∨
        s.phase = .recv ∧ (pins s).rxFault = false ∧ (pins s).rxValid = false ∧ (pins s).tick = false)) ∨
      (s.phase = .idle ∧ (pins s).cmdValid = true ∧ t = accept cfg (pins s).cmdId (pins s).cmdArg (edge s)) ∨
      (s.phase = .send ∧ (pins s).txReady = true ∧ txAccept cfg (edge s) = .next t) ∨
      (s.phase = .recv ∧ (pins s).rxFault = true ∧ t = rxFault (edge s)) ∨
      (s.phase = .recv ∧ (pins s).rxFault = false ∧ (pins s).rxValid = true ∧
        ∃ u, rxByte cfg (pins s).rxData (edge s) = .next u ∧
          ((pins s).tick = false ∧ t = u ∨ (pins s).tick = true ∧ t = tick u)) ∨
      (s.phase = .recv ∧ (pins s).rxFault = false ∧ (pins s).rxValid = false ∧ (pins s).tick = true ∧
        t = tick (edge s)))) :=
  stepIn_cases (step_eq_stepIn ▸ h)

/-- A run whose first step gives a next state goes on from there. -/
theorem core_run_succ {s t : State} (n : Nat) (h : step s = .next t) :
    Sys2Proof.core.run (n + 1) s = Sys2Proof.core.run n t := by
  have h' : Sys2Proof.core.step s = .next t := h
  simp only [Host.Core.run, h']

/-- A run of `a + b` cycles is a run of `a` and then one of `b`. -/
theorem core_run_add {s t : State} (a b : Nat) (h : Sys2Proof.core.run a s = .next t) :
    Sys2Proof.core.run (a + b) s = Sys2Proof.core.run b t := by
  induction a generalizing s with
  | zero =>
    simp only [Host.Core.run] at h
    injection h with h
    subst h
    simp
  | succ a ih =>
    rw [show a + 1 + b = (a + b) + 1 by omega]
    cases hs : Sys2Proof.core.step s with
    | next u =>
      simp only [Host.Core.run, hs] at h ⊢
      exact ih h
    | fault =>
      simp only [Host.Core.run, hs] at h
      cases h
    | refused =>
      simp only [Host.Core.run, hs] at h
      cases h

end Sys2Proof.Machine
end

