-- ==== Sys2Proof/Laws/Encoder.lean ====
section
/-! SUPPORT. The bytes of a built frame, index by index (R52, R110). -/

namespace Sys2Proof.Machine

section
variable (c : Cfg) (op : Byte) (ack : Bool) (arg : U16)

@[simp] theorem buildFn_start : (buildFn c op ack arg)[0] = c.start := rfl
@[simp] theorem buildFn_version : (buildFn c op ack arg)[1] = c.version := rfl
@[simp] theorem buildFn_len : (buildFn c op ack arg)[2] = c.len := rfl
@[simp] theorem buildFn_command : (buildFn c op ack arg)[3] = op := rfl
@[simp] theorem buildFn_ack : (buildFn c op ack arg)[4] = ackByte c ack := rfl
@[simp] theorem buildFn_argHi : (buildFn c op ack arg)[5] = hi arg := rfl
@[simp] theorem buildFn_argLo : (buildFn c op ack arg)[6] = lo arg := rfl
@[simp] theorem buildFn_checksumHi : (buildFn c op ack arg)[7] = hi (buildChecksum c op ack arg) := rfl
@[simp] theorem buildFn_checksumLo : (buildFn c op ack arg)[8] = lo (buildChecksum c op ack arg) := rfl
@[simp] theorem buildFn_endMark : (buildFn c op ack arg)[9] = c.endMark := rfl

theorem buildFn_toList :
    (buildFn c op ack arg).toList = [c.start, c.version, c.len, op, ackByte c ack, hi arg, lo arg,
      hi (buildChecksum c op ack arg), lo (buildChecksum c op ack arg), c.endMark] := rfl

/-- The checksum of a built frame is the negated sum of its own body (R101). -/
theorem buildChecksum_eq : buildChecksum c op ack arg = neg16 (sum6 (buildFn c op ack arg)) := rfl

end

/-- What the build leaves in `TXBUF` is what R39 says of it. -/
theorem frameBuilt_buildFn (op : Byte) (m : Bool) (arg : U16) : FrameBuilt m (buildFn cfg op m arg) where
  start := rfl
  version := rfl
  length := rfl
  endMark := rfl
  ack := rfl
  checksum := by rw [buildFn_checksumHi, buildFn_checksumLo, cat_hi_lo, buildChecksum_eq]

end Sys2Proof.Machine
end

