-- ==== Sys2Proof/Laws/PerInstr.lean ====
section
/-! SUPPORT. What is said of every instruction, one lemma per constructor of `Instr`. -/

namespace Sys2Proof.Laws.EncodeMatchesRow

open Machine

/-- What a row of spec/opcode_table.json fixes: the top five bits of the command word (`cmd_match`), or the command byte of
a reply frame between its markers (`match`). -/
inductive Row where
  | command (id : Nat)
  | reply (cmd : Byte)

/-- The row of each instruction, as the table writes it. -/
def row : Instr → Row
  | .play _ => .command 0
  | .playIndex _ => .command 1
  | .next _ => .command 2
  | .previous _ => .command 3
  | .setVolume _ => .command 4
  | .setEq _ => .command 5
  | .setDevice _ => .command 6
  | .sleep _ => .command 7
  | .reset _ => .command 8
  | .pause _ => .command 9
  | .stop _ => .command 10
  | .singleLoop _ => .command 11
  | .singlePlay _ => .command 12
  | .dacEnable _ => .command 13
  | .randomPlay _ => .command 14
  | .getState _ => .command 15
  | .getVolume _ => .command 16
  | .getUsbCount _ => .command 17
  | .getSdCount _ => .command 18
  | .getFlashCount _ => .command 19
  | .getCurUsb _ => .command 20
  | .getCurSd _ => .command 21
  | .getCurFlash _ => .command 22
  | .setReplyMode _ => .command 23
  | .replyAck _ => .reply 0x41
  | .replyPeriphError _ => .reply 0x40
  | .replyMediaPresent _ => .reply 0x3F
  | .replyPlayState _ => .reply 0x42
  | .replyVolume _ => .reply 0x43
  | .replyCountUsb _ => .reply 0x47
  | .replyCountSd _ => .reply 0x48
  | .replyCountFlash _ => .reply 0x49
  | .replyCurUsb _ => .reply 0x4B
  | .replyCurSd _ => .reply 0x4C
  | .replyCurFlash _ => .reply 0x4D

/-- The encoder writes the bits that the instruction's row fixes, whatever the operands. -/
def Statement (i : Instr) : Prop :=
  match row i with
  | .command id => ∃ w, encode i = .commandWord w ∧ w.toNat / 65536 = id
  | .reply cmd => ∃ f : Frame, encode i = .replyBytes f.toList ∧ f[0] = 0x7E ∧ f[3] = cmd ∧ f[9] = 0xEF

theorem word_id (id : CmdId) (a : U16) : (cmdWord id a).toNat / 65536 = id.toNat := by
  have := a.isLt
  rw [cmdWord_toNat]
  omega

theorem play (a : U16) : Statement (.play a) := ⟨_, rfl, word_id 0 a⟩
theorem playIndex (a : U16) : Statement (.playIndex a) := ⟨_, rfl, word_id 1 a⟩
theorem next (a : U16) : Statement (.next a) := ⟨_, rfl, word_id 2 a⟩
theorem previous (a : U16) : Statement (.previous a) := ⟨_, rfl, word_id 3 a⟩
theorem setVolume (a : U16) : Statement (.setVolume a) := ⟨_, rfl, word_id 4 a⟩
theorem setEq (a : U16) : Statement (.setEq a) := ⟨_, rfl, word_id 5 a⟩
theorem setDevice (a : U16) : Statement (.setDevice a) := ⟨_, rfl, word_id 6 a⟩
theorem sleep (a : U16) : Statement (.sleep a) := ⟨_, rfl, word_id 7 a⟩
theorem reset (a : U16) : Statement (.reset a) := ⟨_, rfl, word_id 8 a⟩
theorem pause (a : U16) : Statement (.pause a) := ⟨_, rfl, word_id 9 a⟩
theorem stop (a : U16) : Statement (.stop a) := ⟨_, rfl, word_id 10 a⟩
theorem singleLoop (a : U16) : Statement (.singleLoop a) := ⟨_, rfl, word_id 11 a⟩
theorem singlePlay (a : U16) : Statement (.singlePlay a) := ⟨_, rfl, word_id 12 a⟩
theorem dacEnable (a : U16) : Statement (.dacEnable a) := ⟨_, rfl, word_id 13 a⟩
theorem randomPlay (a : U16) : Statement (.randomPlay a) := ⟨_, rfl, word_id 14 a⟩
theorem getState (a : U16) : Statement (.getState a) := ⟨_, rfl, word_id 15 a⟩
theorem getVolume (a : U16) : Statement (.getVolume a) := ⟨_, rfl, word_id 16 a⟩
theorem getUsbCount (a : U16) : Statement (.getUsbCount a) := ⟨_, rfl, word_id 17 a⟩
theorem getSdCount (a : U16) : Statement (.getSdCount a) := ⟨_, rfl, word_id 18 a⟩
theorem getFlashCount (a : U16) : Statement (.getFlashCount a) := ⟨_, rfl, word_id 19 a⟩
theorem getCurUsb (a : U16) : Statement (.getCurUsb a) := ⟨_, rfl, word_id 20 a⟩
theorem getCurSd (a : U16) : Statement (.getCurSd a) := ⟨_, rfl, word_id 21 a⟩
theorem getCurFlash (a : U16) : Statement (.getCurFlash a) := ⟨_, rfl, word_id 22 a⟩
theorem setReplyMode (a : U16) : Statement (.setReplyMode a) := ⟨_, rfl, word_id 23 a⟩
theorem replyAck (r : ReplyFields) : Statement (.replyAck r) := ⟨_, rfl, rfl, rfl, rfl⟩
theorem replyPeriphError (r : ReplyFields) : Statement (.replyPeriphError r) := ⟨_, rfl, rfl, rfl, rfl⟩
theorem replyMediaPresent (r : ReplyFields) : Statement (.replyMediaPresent r) := ⟨_, rfl, rfl, rfl, rfl⟩
theorem replyPlayState (r : ReplyFields) : Statement (.replyPlayState r) := ⟨_, rfl, rfl, rfl, rfl⟩
theorem replyVolume (r : ReplyFields) : Statement (.replyVolume r) := ⟨_, rfl, rfl, rfl, rfl⟩
theorem replyCountUsb (r : ReplyFields) : Statement (.replyCountUsb r) := ⟨_, rfl, rfl, rfl, rfl⟩
theorem replyCountSd (r : ReplyFields) : Statement (.replyCountSd r) := ⟨_, rfl, rfl, rfl, rfl⟩
theorem replyCountFlash (r : ReplyFields) : Statement (.replyCountFlash r) := ⟨_, rfl, rfl, rfl, rfl⟩
theorem replyCurUsb (r : ReplyFields) : Statement (.replyCurUsb r) := ⟨_, rfl, rfl, rfl, rfl⟩
theorem replyCurSd (r : ReplyFields) : Statement (.replyCurSd r) := ⟨_, rfl, rfl, rfl, rfl⟩
theorem replyCurFlash (r : ReplyFields) : Statement (.replyCurFlash r) := ⟨_, rfl, rfl, rfl, rfl⟩

end Sys2Proof.Laws.EncodeMatchesRow
end

