-- ==== Sys2Proof/Tests/Slice0.lean ====
section
/-! SUPPORT. Tests: words and frames written out from the spec, one-step tests with the spec's own vectors
(spec/95_test_vectors.md; the rule or vector is named in each docstring), and for every statement with hypotheses a witness
that meets them together. -/

namespace Sys2Proof.Tests

open Sys2Proof Machine

/-- The frame `7E FF 06 43 00 00 1C FE 9C EF` of vector V1. -/
def v1 : Frame := #v[0x7E, 0xFF, 0x06, 0x43, 0x00, 0x00, 0x1C, 0xFE, 0x9C, 0xEF]

/-- A buffer of 55. -/
def junk : Frame := #v[0x55, 0x55, 0x55, 0x55, 0x55, 0x55, 0x55, 0x55, 0x55, 0x55]

/-- Idle, with reply mode `m` and input cycles `ps`. -/
def idleAt (m : Bool) (ps : List InPins) : State :=
  { isReply := m, txbuf := junk, rxbuf := junk, phase := .idle, txidx := 0, rxidx := 0, cmdId := 0, arg := 0, toCnt := 0,
    res := none, wire := [], inputs := ps, clock := 0 }

/-- `SET_VOLUME 28` in progress, byte `i` on offer. -/
def sendAt (i : BitVec 4) (ps : List InPins) : State :=
  { idleAt false ps with
    phase := .send, txidx := i, cmdId := 4, arg := 28, txbuf := #v[0x7E, 0xFF, 0x06, 0x06, 0x00, 0x00, 0x1C, 0xFE, 0xD9, 0xEF] }

/-- `GET_VOLUME` waiting for its reply with `i` bytes of V1 taken and `n` ticks left. -/
def recvAt (i : BitVec 4) (n : Nat) (ps : List InPins) : State :=
  { idleAt false ps with
    phase := .recv, rxidx := i, toCnt := n, cmdId := 16, rxbuf := v1
    txbuf := #v[0x7E, 0xFF, 0x06, 0x43, 0x00, 0x00, 0x00, 0xFE, 0xB8, 0xEF] }

/-- One field of the next state. -/
def after {α : Type} (f : State → α) : StepOutcome → Option α
  | .next s => some (f s)
  | .fault _ => none
  | .refused _ => none

/-! ### Decoding, from words written out from R71 and R72 (five bits of `CMD_ID`, sixteen of `cmd_arg`) -/

theorem test_decode_playback_low :
    decode (.commandWord 0b000001000000000000001) = .ok (.play 0x8001) ∧
    decode (.commandWord 0b000010000000000000011) = .ok (.playIndex 0x0003) ∧
    decode (.commandWord 0b000101010101111001101) = .ok (.next 0xABCD) ∧
    decode (.commandWord 0b000110000000000000000) = .ok (.previous 0x0000) ∧
    decode (.commandWord 0b001000000000000011100) = .ok (.setVolume 0x001C) ∧
    decode (.commandWord 0b001010000000000000101) = .ok (.setEq 0x0005) ∧
    decode (.commandWord 0b001100000000000000010) = .ok (.setDevice 0x0002) ∧
    decode (.commandWord 0b001110000000011111111) = .ok (.sleep 0x00FF) := by decide

theorem test_decode_playback_high :
    decode (.commandWord 0b010000000000100000000) = .ok (.reset 0x0100) ∧
    decode (.commandWord 0b010010111111011101111) = .ok (.pause 0x7EEF) ∧
    decode (.commandWord 0b010100000000000000001) = .ok (.stop 0x0001) ∧
    decode (.commandWord 0b010110001001000110100) = .ok (.singleLoop 0x1234) ∧
    decode (.commandWord 0b011000000000000000011) = .ok (.singlePlay 0x0003) ∧
    decode (.commandWord 0b011010000000000000001) = .ok (.dacEnable 0x0001) ∧
    decode (.commandWord 0b011101111111111111111) = .ok (.randomPlay 0xFFFF) := by decide

theorem test_decode_queries :
    decode (.commandWord 0b011110000000000000000) = .ok (.getState 0x0000) ∧
    decode (.commandWord 0b100000000000011111111) = .ok (.getVolume 0x00FF) ∧
    decode (.commandWord 0b100011111111100000000) = .ok (.getUsbCount 0xFF00) ∧
    decode (.commandWord 0b100100000111100001111) = .ok (.getSdCount 0x0F0F) ∧
    decode (.commandWord 0b100110101010101010101) = .ok (.getFlashCount 0x5555) ∧
    decode (.commandWord 0b101001010101010101010) = .ok (.getCurUsb 0xAAAA) ∧
    decode (.commandWord 0b101011000000000000000) = .ok (.getCurSd 0x8000) ∧
    decode (.commandWord 0b101100000000000000001) = .ok (.getCurFlash 0x0001) := by decide

theorem test_decode_local :
    decode (.commandWord 0b101110000000100000000) = .ok (.setReplyMode 0x0100) := by decide

theorem test_reserved_words_are_refused_by_name :
    decode (.commandWord 0b110000000000000000000) = .error (.reservedCmdId 24) ∧
    decode (.commandWord 0b111111111111111111111) = .error (.reservedCmdId 31) := by decide

/-- Vectors V1, V3 to V11, V13. -/
theorem test_decode_replies :
    decode (.replyBytes [0x7E, 0xFF, 0x06, 0x42, 0x00, 0x02, 0x01, 0xFE, 0xB6, 0xEF]) =
      .ok (.replyPlayState ⟨0xFF, 0x06, 0x00, 0x0201, 0xFEB6⟩) ∧
    decode (.replyBytes [0x7E, 0xFF, 0x06, 0x43, 0x00, 0x00, 0x1C, 0xFE, 0x9C, 0xEF]) =
      .ok (.replyVolume ⟨0xFF, 0x06, 0x00, 0x001C, 0xFE9C⟩) ∧
    decode (.replyBytes [0x7E, 0xFF, 0x06, 0x47, 0x00, 0x00, 0x00, 0xFE, 0xB4, 0xEF]) =
      .ok (.replyCountUsb ⟨0xFF, 0x06, 0x00, 0x0000, 0xFEB4⟩) ∧
    decode (.replyBytes [0x7E, 0xFF, 0x06, 0x48, 0x00, 0x01, 0x2C, 0xFE, 0x86, 0xEF]) =
      .ok (.replyCountSd ⟨0xFF, 0x06, 0x00, 0x012C, 0xFE86⟩) ∧
    decode (.replyBytes [0x7E, 0xFF, 0x06, 0x49, 0x00, 0xFF, 0xFF, 0xFC, 0xB4, 0xEF]) =
      .ok (.replyCountFlash ⟨0xFF, 0x06, 0x00, 0xFFFF, 0xFCB4⟩) ∧
    decode (.replyBytes [0x7E, 0xFF, 0x06, 0x4B, 0x00, 0x00, 0x01, 0xFE, 0xAF, 0xEF]) =
      .ok (.replyCurUsb ⟨0xFF, 0x06, 0x00, 0x0001, 0xFEAF⟩) ∧
    decode (.replyBytes [0x7E, 0xFF, 0x06, 0x4C, 0x00, 0x00, 0x05, 0xFE, 0xAA, 0xEF]) =
      .ok (.replyCurSd ⟨0xFF, 0x06, 0x00, 0x0005, 0xFEAA⟩) ∧
    decode (.replyBytes [0x7E, 0xFF, 0x06, 0x4D, 0x00, 0x01, 0x00, 0xFE, 0xAD, 0xEF]) =
      .ok (.replyCurFlash ⟨0xFF, 0x06, 0x00, 0x0100, 0xFEAD⟩) ∧
    decode (.replyBytes [0x7E, 0xFF, 0x06, 0x40, 0x00, 0x00, 0x06, 0xFE, 0xB5, 0xEF]) =
      .ok (.replyPeriphError ⟨0xFF, 0x06, 0x00, 0x0006, 0xFEB5⟩) ∧
    decode (.replyBytes [0x7E, 0xFF, 0x06, 0x3F, 0x00, 0x00, 0x02, 0xFE, 0xBA, 0xEF]) =
      .ok (.replyMediaPresent ⟨0xFF, 0x06, 0x00, 0x0002, 0xFEBA⟩) ∧
    decode (.replyBytes [0x7E, 0xFF, 0x06, 0x41, 0x01, 0x00, 0x00, 0xFE, 0xB9, 0xEF]) =
      .ok (.replyAck ⟨0xFF, 0x06, 0x01, 0x0000, 0xFEB9⟩) := by
  decide

/-- Vectors V15, X1, X2, X12: what is no row is refused by name. -/
theorem test_decode_no_reply_row :
    decode (.replyBytes [0x7E, 0xFF, 0x06, 0x3D, 0x00, 0x00, 0x01, 0xFE, 0xBD, 0xEF]) = .error (.otherCommandByte 0x3D) ∧
    decode (.replyBytes [0x7F, 0xFF, 0x06, 0x43, 0x00, 0x00, 0x1C, 0xFE, 0x9C, 0xEF]) = .error .badStartMarker ∧
    decode (.replyBytes [0x7E, 0xFF, 0x06, 0x43, 0x00, 0x00, 0x1C, 0xFE, 0x9C, 0xEE]) = .error .badEndMarker ∧
    decode (.replyBytes [0x7E, 0xFF, 0x06, 0x43, 0x00, 0x00, 0x1C, 0xFE, 0x9C]) = .error .badLength := by decide

/-! ### Well-formedness: one check for each reply row, refused with a wrong checksum -/

theorem test_wellFormed_accepts :
    Instr.wellFormed (.replyPlayState ⟨0xFF, 0x06, 0x00, 0x0201, 0xFEB6⟩) = true ∧
    Instr.wellFormed (.replyVolume ⟨0xFF, 0x06, 0x00, 0x001C, 0xFE9C⟩) = true ∧
    Instr.wellFormed (.replyCountUsb ⟨0xFF, 0x06, 0x00, 0x0000, 0xFEB4⟩) = true ∧
    Instr.wellFormed (.replyCountSd ⟨0xFF, 0x06, 0x00, 0x012C, 0xFE86⟩) = true ∧
    Instr.wellFormed (.replyCountFlash ⟨0xFF, 0x06, 0x00, 0xFFFF, 0xFCB4⟩) = true ∧
    Instr.wellFormed (.replyCurUsb ⟨0xFF, 0x06, 0x00, 0x0001, 0xFEAF⟩) = true ∧
    Instr.wellFormed (.replyCurSd ⟨0xFF, 0x06, 0x00, 0x0005, 0xFEAA⟩) = true ∧
    Instr.wellFormed (.replyCurFlash ⟨0xFF, 0x06, 0x00, 0x0100, 0xFEAD⟩) = true ∧
    Instr.wellFormed (.replyPeriphError ⟨0xFF, 0x06, 0x00, 0x0006, 0xFEB5⟩) = true ∧
    Instr.wellFormed (.replyMediaPresent ⟨0xFF, 0x06, 0x00, 0x0002, 0xFEBA⟩) = true ∧
    Instr.wellFormed (.replyAck ⟨0xFF, 0x06, 0x01, 0x0000, 0xFEB9⟩) = true ∧
    Instr.wellFormed (.setVolume 31) = true := by decide

theorem test_wellFormed_refuses :
    Instr.wellFormed (.replyPlayState ⟨0xFF, 0x06, 0x00, 0x0201, 0x0000⟩) = false ∧
    Instr.wellFormed (.replyVolume ⟨0xFF, 0x06, 0x00, 0x001C, 0x0000⟩) = false ∧
    Instr.wellFormed (.replyCountUsb ⟨0xFF, 0x06, 0x00, 0x0000, 0x0000⟩) = false ∧
    Instr.wellFormed (.replyCountSd ⟨0xFF, 0x06, 0x00, 0x012C, 0x0000⟩) = false ∧
    Instr.wellFormed (.replyCountFlash ⟨0xFF, 0x06, 0x00, 0xFFFF, 0x0000⟩) = false ∧
    Instr.wellFormed (.replyCurUsb ⟨0xFF, 0x06, 0x00, 0x0001, 0x0000⟩) = false ∧
    Instr.wellFormed (.replyCurSd ⟨0xFF, 0x06, 0x00, 0x0005, 0x0000⟩) = false ∧
    Instr.wellFormed (.replyCurFlash ⟨0xFF, 0x06, 0x00, 0x0100, 0x0000⟩) = false ∧
    Instr.wellFormed (.replyPeriphError ⟨0xFF, 0x06, 0x00, 0x0006, 0x0000⟩) = false ∧
    Instr.wellFormed (.replyMediaPresent ⟨0xFF, 0x06, 0x00, 0x0002, 0x0000⟩) = false ∧
    Instr.wellFormed (.replyAck ⟨0xFF, 0x06, 0x01, 0x0000, 0x0000⟩) = false := by decide

/-! ### The host's two readings of a table row -/

/-- `SET_VOLUME 28` as the `CMD21` row and as the `FRAME10` row, V1 as a reply row, and a row of no known opcode. -/
theorem test_table_words :
    decodeTableWord 24 0x04001C = some (.setVolume 28) ∧
    decodeTableWord 80 0x7EFF060600001CFED9EF = some (.setVolume 28) ∧
    decodeTableWord 80 0x7EFF064300001CFE9CEF = some (.replyVolume ⟨0xFF, 0x06, 0x00, 0x001C, 0xFE9C⟩) ∧
    decodeTableWord 80 0x7EFF06000000030000EF = some (.singlePlay 3) := by decide

theorem test_fetch_runs_a_command :
    after (fun s => (s.cmdId, s.arg, s.phase)) (step (State.reset.withFetchWord 80 0x7EFF060600001CFED9EF)) =
      some (4, 28, .send) := by decide

theorem test_fetch_runs_a_reply :
    after State.res (step (State.reset.withFetchWord 80 0x7EFF064300001CFE9CEF)) =
      some (some ⟨.okReply, .volume, 0x43, 0x001C⟩) := by decide

/-! ### The encoder and the decoder of frames -/

/-- Vectors E1, E2, E6, E9, E12, E17. -/
theorem test_build :
    buildFn cfg 0x06 false 0x001C = #v[0x7E, 0xFF, 0x06, 0x06, 0x00, 0x00, 0x1C, 0xFE, 0xD9, 0xEF] ∧
    buildFn cfg 0x06 true 0x001C = #v[0x7E, 0xFF, 0x06, 0x06, 0x01, 0x00, 0x1C, 0xFE, 0xD8, 0xEF] ∧
    buildFn cfg 0xFF true 0xFFFF = #v[0x7E, 0xFF, 0x06, 0xFF, 0x01, 0xFF, 0xFF, 0xFB, 0xFD, 0xEF] ∧
    buildFn cfg 0x06 false 0x00EF = #v[0x7E, 0xFF, 0x06, 0x06, 0x00, 0x00, 0xEF, 0xFE, 0x06, 0xEF] ∧
    buildFn cfg 0x03 false 0x7EEF = #v[0x7E, 0xFF, 0x06, 0x03, 0x00, 0x7E, 0xEF, 0xFD, 0x8B, 0xEF] ∧
    buildFn cfg 0xFB false 0x0000 = #v[0x7E, 0xFF, 0x06, 0xFB, 0x00, 0x00, 0x00, 0xFE, 0x00, 0xEF] := by decide

/-- Vectors V14, V17, V18, V19, V20, V22. -/
theorem test_parse_accepts :
    parse cfg [0x7E, 0xFF, 0x06, 0x43, 0x00, 0x00, 0xC8, 0xFD, 0xF0, 0xEF] = .decoded .volume 0x43 0x00C8 ∧
    parse cfg [0x7E, 0x00, 0x00, 0x43, 0x00, 0x00, 0x1C, 0xFF, 0xA1, 0xEF] = .decoded .volume 0x43 0x001C ∧
    parse cfg [0x7E, 0xFF, 0x06, 0x43, 0x7E, 0x00, 0x1C, 0xFE, 0x1E, 0xEF] = .decoded .volume 0x43 0x001C ∧
    parse cfg [0x7E, 0x00, 0x00, 0x00, 0x00, 0x00, 0x00, 0x00, 0x00, 0xEF] = .decoded .other 0x00 0x0000 ∧
    parse cfg [0x7E, 0xFF, 0xFF, 0xFF, 0xFF, 0xFF, 0xFF, 0xFA, 0x06, 0xEF] = .decoded .other 0xFF 0xFFFF ∧
    parse cfg [0x7E, 0xFF, 0x06, 0x44, 0x00, 0x00, 0x1B, 0xFE, 0x9C, 0xEF] = .decoded .other 0x44 0x001B := by decide

/-- Vectors X3, X4, X5, X6, X9, X13, X14, X15. -/
theorem test_parse_rejects :
    parse cfg [0x00, 0xFF, 0x06, 0x43, 0x00, 0x00, 0x1C, 0xFE, 0x9C, 0x00] = .error .badStartMarker ∧
    parse cfg [0x7E, 0xFF, 0x06, 0x43, 0x00, 0x00, 0x1C, 0xFE, 0x9D, 0x7E] = .error .badEndMarker ∧
    parse cfg [0xEF, 0xFF, 0x06, 0x43, 0x00, 0x00, 0x1C, 0xFE, 0x9D, 0xEF] = .error .badStartMarker ∧
    parse cfg [0x7E, 0xFF, 0x06, 0x43, 0x00, 0x00, 0x1D, 0xFE, 0x9C, 0xEF] = .error .checksumMismatch ∧
    parse cfg [0x7E, 0xFF, 0x06, 0x43, 0x00, 0x00, 0x1C, 0xFF, 0x9C, 0xEF] = .error .checksumMismatch ∧
    parse cfg [0x7E, 0xFF, 0x06, 0x43, 0x00, 0x00, 0x1C, 0xFE, 0x9C, 0xEF, 0x00] = .error .badLength ∧
    parse cfg [] = .error .badLength ∧
    parse cfg [0x00, 0xFF, 0x06, 0x43, 0x00, 0x00, 0x1C, 0xFE, 0x9C] = .error .badLength := by decide

/-! ### The instructions, one step each -/

/-- Vector M-0. -/
theorem test_play :
    after State.txbuf (exec (.play 0) (idleAt false [])) =
      some #v[0x7E, 0xFF, 0x06, 0x0D, 0x00, 0x00, 0x00, 0xFE, 0xEE, 0xEF] := by decide

/-- Vector M-1. -/
theorem test_playIndex :
    after State.txbuf (exec (.playIndex 3) (idleAt false [])) =
      some #v[0x7E, 0xFF, 0x06, 0x03, 0x00, 0x00, 0x03, 0xFE, 0xF5, 0xEF] := by decide

/-- Vector M13. -/
theorem test_next :
    after State.txbuf (exec (.next 0xABCD) (idleAt false [])) =
      some #v[0x7E, 0xFF, 0x06, 0x01, 0x00, 0x00, 0x00, 0xFE, 0xFA, 0xEF] := by decide

/-- Vector M-3. -/
theorem test_previous :
    after State.txbuf (exec (.previous 0) (idleAt false [])) =
      some #v[0x7E, 0xFF, 0x06, 0x02, 0x00, 0x00, 0x00, 0xFE, 0xF9, 0xEF] := by decide

/-- Vector M-4. -/
theorem test_setVolume :
    after State.txbuf (exec (.setVolume 28) (idleAt false [])) =
      some #v[0x7E, 0xFF, 0x06, 0x06, 0x00, 0x00, 0x1C, 0xFE, 0xD9, 0xEF] := by decide

/-- Vector M-5. -/
theorem test_setEq :
    after State.txbuf (exec (.setEq 5) (idleAt false [])) =
      some #v[0x7E, 0xFF, 0x06, 0x07, 0x00, 0x00, 0x05, 0xFE, 0xEF, 0xEF] := by decide

/-- Vector M-7. -/
theorem test_sleep :
    after State.txbuf (exec (.sleep 0) (idleAt false [])) =
      some #v[0x7E, 0xFF, 0x06, 0x0A, 0x00, 0x00, 0x00, 0xFE, 0xF1, 0xEF] := by decide

/-- Vector M-8. -/
theorem test_reset :
    after State.txbuf (exec (.reset 0) (idleAt false [])) =
      some #v[0x7E, 0xFF, 0x06, 0x0C, 0x00, 0x00, 0x00, 0xFE, 0xEF, 0xEF] := by decide

/-- Vector M-9. -/
theorem test_pause :
    after State.txbuf (exec (.pause 0) (idleAt false [])) =
      some #v[0x7E, 0xFF, 0x06, 0x0E, 0x00, 0x00, 0x00, 0xFE, 0xED, 0xEF] := by decide

/-- Vector M-10. -/
theorem test_stop :
    after State.txbuf (exec (.stop 0) (idleAt false [])) =
      some #v[0x7E, 0xFF, 0x06, 0x16, 0x00, 0x00, 0x00, 0xFE, 0xE5, 0xEF] := by decide

/-- Vector M14. -/
theorem test_singleLoop :
    after State.txbuf (exec (.singleLoop 0x1234) (idleAt false [])) =
      some #v[0x7E, 0xFF, 0x06, 0x19, 0x00, 0x12, 0x34, 0xFE, 0x9C, 0xEF] := by decide

/-- Vector M-13. -/
theorem test_dacEnable :
    after State.txbuf (exec (.dacEnable 1) (idleAt false [])) =
      some #v[0x7E, 0xFF, 0x06, 0x1A, 0x00, 0x00, 0x01, 0xFE, 0xE0, 0xEF] := by decide

/-- Vector M-14. -/
theorem test_randomPlay :
    after State.txbuf (exec (.randomPlay 0) (idleAt false [])) =
      some #v[0x7E, 0xFF, 0x06, 0x18, 0x00, 0x00, 0x00, 0xFE, 0xE3, 0xEF] := by decide

/-- Vector M-15. -/
theorem test_getState :
    after State.txbuf (exec (.getState 0) (idleAt true [])) =
      some #v[0x7E, 0xFF, 0x06, 0x42, 0x01, 0x00, 0x00, 0xFE, 0xB8, 0xEF] := by decide

/-- Vector M-16. -/
theorem test_getVolume :
    after State.txbuf (exec (.getVolume 0) (idleAt false [])) =
      some #v[0x7E, 0xFF, 0x06, 0x43, 0x00, 0x00, 0x00, 0xFE, 0xB8, 0xEF] := by decide

/-- Vector M-17. -/
theorem test_getUsbCount :
    after State.txbuf (exec (.getUsbCount 0) (idleAt false [])) =
      some #v[0x7E, 0xFF, 0x06, 0x47, 0x00, 0x00, 0x00, 0xFE, 0xB4, 0xEF] := by decide

/-- Vector M-18. -/
theorem test_getSdCount :
    after State.txbuf (exec (.getSdCount 0) (idleAt false [])) =
      some #v[0x7E, 0xFF, 0x06, 0x48, 0x00, 0x00, 0x00, 0xFE, 0xB3, 0xEF] := by decide

/-- Vector M-19. -/
theorem test_getFlashCount :
    after State.txbuf (exec (.getFlashCount 0) (idleAt false [])) =
      some #v[0x7E, 0xFF, 0x06, 0x49, 0x00, 0x00, 0x00, 0xFE, 0xB2, 0xEF] := by decide

/-- Vector M-20. -/
theorem test_getCurUsb :
    after State.txbuf (exec (.getCurUsb 0) (idleAt false [])) =
      some #v[0x7E, 0xFF, 0x06, 0x4B, 0x00, 0x00, 0x00, 0xFE, 0xB0, 0xEF] := by decide

/-- Vector M-21. -/
theorem test_getCurSd :
    after State.txbuf (exec (.getCurSd 0) (idleAt false [])) =
      some #v[0x7E, 0xFF, 0x06, 0x4C, 0x00, 0x00, 0x00, 0xFE, 0xAF, 0xEF] := by decide

/-- Vector M-22. -/
theorem test_getCurFlash :
    after State.txbuf (exec (.getCurFlash 0) (idleAt true [])) =
      some #v[0x7E, 0xFF, 0x06, 0x4D, 0x01, 0x00, 0x00, 0xFE, 0xAD, 0xEF] := by decide

/-- Vector M-12: the opcode byte is free, the operand is the frame's. -/
theorem test_singlePlay :
    after (fun s => (s.phase, memRead2 s.txbuf 5)) (exec (.singlePlay 3) (idleAt false [])) = some (.send, some 3) := by
  decide

/-- Vectors M-6 and M10, for a `DEV_VALID` that admits 2 and not 6. -/
theorem test_setDevice :
    (accept { cfg with devValid := fun d => d = 2 } 6 2 (idleAt false [])).txbuf =
      #v[0x7E, 0xFF, 0x06, 0x09, 0x00, 0x00, 0x02, 0xFE, 0xF0, 0xEF] ∧
    (accept { cfg with devValid := fun d => d = 2 } 6 6 (idleAt false [])).res =
      some ⟨.invalidArgument, .none, 0, 0⟩ := by decide

/-- Vectors M3, M4, M5: the whole 16 bits are compared. -/
theorem test_setVolume_rejects :
    after State.res (exec (.setVolume 31) (idleAt false [])) = some (some ⟨.invalidArgument, .none, 0, 0⟩) ∧
    after State.res (exec (.setVolume 0x011E) (idleAt false [])) = some (some ⟨.invalidArgument, .none, 0, 0⟩) ∧
    after State.txbuf (exec (.setVolume 0xFFFF) (idleAt true [])) = some junk := by decide

/-- Vector M7. -/
theorem test_setEq_rejects :
    after State.res (exec (.setEq 6) (idleAt false [])) = some (some ⟨.invalidArgument, .none, 0, 0⟩) := by decide

/-- Vectors M17, M18. -/
theorem test_setReplyMode :
    after (fun s => (s.isReply, s.phase)) (exec (.setReplyMode 0x0100) (idleAt false [])) = some (true, .idle) ∧
    after (fun s => (s.isReply, s.phase)) (exec (.setReplyMode 0) (idleAt true [])) = some (false, .idle) := by decide

/-- Vector V3. -/
theorem test_replyPlayState :
    after State.res (exec (.replyPlayState ⟨0xFF, 0x06, 0x00, 0x0201, 0xFEB6⟩) (recvAt 9 3 [])) =
      some (some ⟨.okReply, .playState, 0x42, 0x0201⟩) := by decide

/-- Vector V1. -/
theorem test_replyVolume :
    after State.res (exec (.replyVolume ⟨0xFF, 0x06, 0x00, 0x001C, 0xFE9C⟩) (recvAt 9 3 [])) =
      some (some ⟨.okReply, .volume, 0x43, 0x001C⟩) := by decide

/-- Vector V5. -/
theorem test_replyCountUsb :
    after State.res (exec (.replyCountUsb ⟨0xFF, 0x06, 0x00, 0x0000, 0xFEB4⟩) (recvAt 9 3 [])) =
      some (some ⟨.okReply, .countUsb, 0x47, 0x0000⟩) := by decide

/-- Vector V4. -/
theorem test_replyCountSd :
    after State.res (exec (.replyCountSd ⟨0xFF, 0x06, 0x00, 0x012C, 0xFE86⟩) (recvAt 9 3 [])) =
      some (some ⟨.okReply, .countSd, 0x48, 0x012C⟩) := by decide

/-- Vector V6. -/
theorem test_replyCountFlash :
    after State.res (exec (.replyCountFlash ⟨0xFF, 0x06, 0x00, 0xFFFF, 0xFCB4⟩) (recvAt 9 3 [])) =
      some (some ⟨.okReply, .countFlash, 0x49, 0xFFFF⟩) := by decide

/-- Vector V7. -/
theorem test_replyCurUsb :
    after State.res (exec (.replyCurUsb ⟨0xFF, 0x06, 0x00, 0x0001, 0xFEAF⟩) (recvAt 9 3 [])) =
      some (some ⟨.okReply, .curUsb, 0x4B, 0x0001⟩) := by decide

/-- Vector V8. -/
theorem test_replyCurSd :
    after State.res (exec (.replyCurSd ⟨0xFF, 0x06, 0x00, 0x0005, 0xFEAA⟩) (recvAt 9 3 [])) =
      some (some ⟨.okReply, .curSd, 0x4C, 0x0005⟩) := by decide

/-- Vector V9. -/
theorem test_replyCurFlash :
    after State.res (exec (.replyCurFlash ⟨0xFF, 0x06, 0x00, 0x0100, 0xFEAD⟩) (recvAt 9 3 [])) =
      some (some ⟨.okReply, .curFlash, 0x4D, 0x0100⟩) := by decide

/-- Vector V10. -/
theorem test_replyPeriphError :
    after State.res (exec (.replyPeriphError ⟨0xFF, 0x06, 0x00, 0x0006, 0xFEB5⟩) (recvAt 9 3 [])) =
      some (some ⟨.okReply, .periphError, 0x40, 0x0006⟩) := by decide

/-- Vector V11. -/
theorem test_replyMediaPresent :
    after State.res (exec (.replyMediaPresent ⟨0xFF, 0x06, 0x00, 0x0002, 0xFEBA⟩) (recvAt 9 3 [])) =
      some (some ⟨.okReply, .mediaPresent, 0x3F, 0x0002⟩) := by decide

/-- Vector V13. -/
theorem test_replyAck :
    after State.res (exec (.replyAck ⟨0xFF, 0x06, 0x01, 0x0000, 0xFEB9⟩) (recvAt 9 3 [])) =
      some (some ⟨.okReply, .ack, 0x41, 0x0000⟩) := by decide

/-! ### The transceiver -/

/-- Vector T1, its last byte: all ten bytes are on the wire and `OK_VOID` is reported, `TXIDX` stays 9. -/
theorem test_last_byte_ends_fire_and_forget :
    after (fun s => (s.wire, s.phase, s.txidx, s.res)) (step (sendAt 9 [{ txReady := true }])) =
      some ([0xEF], .idle, 9, some ⟨.okVoid, .none, 0, 0⟩) := by decide

/-- Vector T5, its last byte. -/
theorem test_tenth_byte_completes :
    after (fun s => (s.res, s.phase, s.rxidx, s.toCnt)) (step (recvAt 9 3 [{ rxValid := true, rxData := 0xEF }])) =
      some (some ⟨.okReply, .volume, 0x43, 0x001C⟩, .idle, 9, 3) := by decide

/-- Vectors T6, T10, T11, T12: the last tick; a tenth byte and a tick; a fourth byte and a tick; all three at once. -/
theorem test_same_cycle_events :
    after State.res (step (recvAt 0 1 [{ tick := true }])) = some (some ⟨.timeoutError, .none, 0, 0⟩) ∧
    after State.res (step (recvAt 9 1 [{ rxValid := true, rxData := 0xEF, tick := true }])) =
      some (some ⟨.okReply, .volume, 0x43, 0x001C⟩) ∧
    after (fun s => (s.rxidx, s.res)) (step (recvAt 3 1 [{ rxValid := true, rxData := 0x43, tick := true }])) =
      some (4, some ⟨.timeoutError, .none, 0, 0⟩) ∧
    after (fun s => (s.rxidx, s.toCnt, s.res))
      (step (recvAt 0 3 [{ rxFault := true, rxValid := true, rxData := 0x7E, tick := true }])) =
      some (0, 3, some ⟨.linkError, .none, 0, 0⟩) := by decide

/-- Vectors V15, X1: a frame that is no row of the table, as the tenth byte is taken. -/
theorem test_tenth_byte_of_no_row :
    after State.res (step { recvAt 9 3 [{ rxValid := true, rxData := 0xEF }] with
      rxbuf := #v[0x7E, 0xFF, 0x06, 0x3D, 0x00, 0x00, 0x01, 0xFE, 0xBD, 0x00] }) =
      some (some ⟨.okReply, .other, 0x3D, 0x0001⟩) ∧
    after State.res (step { recvAt 9 3 [{ rxValid := true, rxData := 0xEF }] with
      rxbuf := #v[0x7F, 0xFF, 0x06, 0x43, 0x00, 0x00, 0x1C, 0xFE, 0x9C, 0x00] }) =
      some (some ⟨.protoBadStart, .none, 0, 0⟩) := by decide

/-- Vectors T2, T4: the pins of each phase. -/
theorem test_pins :
    ((outPins (sendAt 4 [])).txData, (outPins (sendAt 4 [])).txValid, (outPins (sendAt 4 [])).busy) = (0x00, true, true) ∧
    ((outPins (recvAt 0 3 [])).rxReady, (outPins (recvAt 0 3 [])).cmdReady, (outPins (recvAt 0 3 [])).resValid) =
      (true, false, false) := by decide

/-- The codes of R27, written out in its order. -/
theorem test_result_codes :
    [Status.okVoid, .okReply, .invalidArgument, .linkError, .timeoutError, .protoBadLength, .protoBadStart, .protoBadEnd,
      .protoChecksum].map statusCode = [0, 1, 2, 3, 4, 5, 6, 7, 8] ∧
    [Kind.none, .ack, .playState, .volume, .mediaPresent, .countUsb, .countSd, .countFlash, .curUsb, .curSd, .curFlash,
      .periphError, .other].map kindCode = [0, 1, 2, 3, 4, 5, 6, 7, 8, 9, 10, 11, 12] := by decide

/-- R182 at 14, 15, 22 and 23, reply mode off, as byte 9 is accepted; and at 14 with it on. -/
theorem test_reply_window :
    after State.phase (step { sendAt 9 [{ txReady := true }] with cmdId := 14 }) = some .idle ∧
    after State.phase (step { sendAt 9 [{ txReady := true }] with cmdId := 15 }) = some .recv ∧
    after State.phase (step { sendAt 9 [{ txReady := true }] with cmdId := 22 }) = some .recv ∧
    after State.phase (step { sendAt 9 [{ txReady := true }] with cmdId := 23 }) = some .idle ∧
    after State.phase (step { sendAt 9 [{ txReady := true }] with cmdId := 14, isReply := true }) = some .recv := by decide

/-- R8: in a configuration with `START` 0x55, `VOL_MAX` 5 and `ROPC_ACK` 0x90, a frame of that configuration is a reply of kind
`ACK` (R152, R156), `SET_VOLUME 6` is rejected (R185), and the frame sent begins with its `START` (R100). -/
theorem test_stepIn_other_configuration :
    let c : Cfg := { cfg with start := 0x55, volMax := 5, ropcAck := 0x90 };
    after State.res (stepIn c { recvAt 9 3 [{ rxValid := true, rxData := 0xEF }] with
      rxbuf := #v[0x55, 0xFF, 0x06, 0x90, 0x00, 0x00, 0x01, 0xFE, 0x6A, 0x00] }) =
      some (some ⟨.okReply, .ack, 0x90, 0x0001⟩) ∧
    after State.res (stepIn c (idleAt false [{ cmdValid := true, cmdId := 4, cmdArg := 6 }])) =
      some (some ⟨.invalidArgument, .none, 0, 0⟩) ∧
    after State.txbuf (stepIn c (idleAt false [{ cmdValid := true, cmdId := 4, cmdArg := 5 }])) =
      some #v[0x55, 0xFF, 0x06, 0x06, 0x00, 0x00, 0x05, 0xFE, 0xF0, 0xEF] := by decide

/-! ### Witnesses: the hypotheses of each statement, met together -/

theorem test_witness_WordWriteIsBigEndian :
    8 ≤ 8 ∧ (memWrite2 junk 8 0x0102).isSome = true ∧ 8 < 9 ∧ memWrite2 junk 9 0x0102 = none := by decide

/-- V1 and its swap V21. -/
theorem test_witness_PermutedBodyIsStillAccepted :
    parse cfg v1.toList = .decoded .volume 0x43 0x001C ∧
    [v1[1], v1[2], v1[3], v1[4], v1[5], v1[6]].Perm [0xFF, 0x06, 0x43, 0x00, 0x1C, 0x00] ∧
    parse cfg [0x7E, 0xFF, 0x06, 0x43, 0x00, 0x1C, 0x00, 0xFE, 0x9C, 0xEF] = .decoded .volume 0x43 0x1C00 := by decide

/-- Both verdicts occur. -/
theorem test_witness_ChecksumVerdict :
    (v1[0] = cfg.start ∧ v1[9] = cfg.endMark ∧ parse cfg v1.toList ≠ .error .checksumMismatch) ∧
    ((v1.set 8 0x8C)[0] = cfg.start ∧ (v1.set 8 0x8C)[9] = cfg.endMark ∧
      parse cfg (v1.set 8 0x8C).toList = .error .checksumMismatch) := by decide

theorem test_witness_VersionLengthAckOnlySummed :
    parse cfg v1.toList = .decoded .volume 0x43 0x001C ∧ (0x7F : Byte) ≠ v1[1] ∧ (0x07 : Byte) ≠ v1[2] ∧
      (0x01 : Byte) ≠ v1[4] := by decide

/-- The first and the last body bit and the first and the last checksum bit. -/
theorem test_witness_SingleBitFlipIsMismatch :
    (1 ≤ (1 : Fin 10).val ∧ (1 : Fin 10).val ≤ 8) ∧ (1 ≤ (8 : Fin 10).val ∧ (8 : Fin 10).val ≤ 8) ∧
    parse cfg ((buildFn cfg 0x06 false 0x1C).set 1 (0xFF ^^^ BitVec.twoPow 8 7)).toList = .error .checksumMismatch ∧
    parse cfg ((buildFn cfg 0x06 false 0x1C).set 8 (0xD9 ^^^ BitVec.twoPow 8 0)).toList = .error .checksumMismatch := by
  decide

/-- The configuration of this hardware is well formed, whatever its open parameters are. -/
theorem test_witness_ClassifySelectsEachKind : cfg.WF ∧ (0x3D : Byte) ∉ cfg.replyBytes :=
  ⟨⟨by decide, by simp [cfg], by decide⟩, by decide⟩

theorem test_witness_EncodeOfDecode :
    decode (.replyBytes v1.toList) = .ok (.replyVolume ⟨0xFF, 0x06, 0x00, 0x001C, 0xFE9C⟩) ∧
    decode (.commandWord 0x17FFFF) = .ok (.setReplyMode 0xFFFF) := by decide

/-- Idle, for the statements of the commands; the boundary operands of `SET_VOLUME` and `SET_EQ`. -/
theorem test_witness_commands_while_idle :
    (idleAt true []).phase = .idle ∧ (30 : U16).toNat ≤ 30 ∧ 30 < (31 : U16).toNat ∧ (5 : U16).toNat ≤ 5 ∧
      5 < (6 : U16).toNat := by decide

/-- A valid checksum for each of the eleven rows, in a state that takes the tenth byte. -/
theorem test_witness_ReplyRowEndsTheCommand :
    (recvAt 9 3 []).phase = .recv ∧ (recvAt 9 3 []).rxidx = 9 ∧
    ReplyFields.checksumValid 0x42 ⟨0xFF, 0x06, 0x00, 0x0201, 0xFEB6⟩ = true ∧
    ReplyFields.checksumValid 0x43 ⟨0xFF, 0x06, 0x00, 0x001C, 0xFE9C⟩ = true ∧
    ReplyFields.checksumValid 0x47 ⟨0xFF, 0x06, 0x00, 0x0000, 0xFEB4⟩ = true ∧
    ReplyFields.checksumValid 0x48 ⟨0xFF, 0x06, 0x00, 0x012C, 0xFE86⟩ = true ∧
    ReplyFields.checksumValid 0x49 ⟨0xFF, 0x06, 0x00, 0xFFFF, 0xFCB4⟩ = true ∧
    ReplyFields.checksumValid 0x4B ⟨0xFF, 0x06, 0x00, 0x0001, 0xFEAF⟩ = true ∧
    ReplyFields.checksumValid 0x4C ⟨0xFF, 0x06, 0x00, 0x0005, 0xFEAA⟩ = true ∧
    ReplyFields.checksumValid 0x4D ⟨0xFF, 0x06, 0x00, 0x0100, 0xFEAD⟩ = true ∧
    ReplyFields.checksumValid 0x40 ⟨0xFF, 0x06, 0x00, 0x0006, 0xFEB5⟩ = true ∧
    ReplyFields.checksumValid 0x3F ⟨0xFF, 0x06, 0x00, 0x0002, 0xFEBA⟩ = true ∧
    ReplyFields.checksumValid 0x41 ⟨0xFF, 0x06, 0x01, 0x0000, 0xFEB9⟩ = true := by decide

theorem test_witness_IllFormedReplyIsProtoChecksum :
    Instr.wellFormed (.replyVolume ⟨0xFF, 0x06, 0x00, 0x001C, 0xFE9D⟩) = false ∧ (recvAt 9 3 []).phase = .recv ∧
      (recvAt 9 3 []).rxidx = 9 := by decide

theorem test_witness_InstructionOutOfItsPhaseChangesNothing :
    ((∃ w, encode (.play 0) = .commandWord w) ∧ (sendAt 9 []).phase ≠ .idle) ∧
    ((∃ bs, encode (.replyVolume ⟨0xFF, 0x06, 0x00, 0x001C, 0xFE9C⟩) = .replyBytes bs) ∧
      ¬((recvAt 8 3 []).phase = .recv ∧ (recvAt 8 3 []).rxidx = 9)) :=
  ⟨⟨⟨_, rfl⟩, by decide⟩, ⟨_, rfl⟩, by decide⟩

theorem test_witness_InstructionFrames :
    (∃ t, exec (.play 0) (idleAt false []) = .next t) ∧
    ∃ t, exec (.replyAck ⟨0xFF, 0x06, 0x01, 0x0000, 0xFEB9⟩) (recvAt 9 3 []) = .next t :=
  ⟨⟨_, rfl⟩, ⟨_, rfl⟩⟩

theorem test_witness_IllegalOperandLeavesNoTrace :
    (idleAt true []).phase = .idle ∧ classOfId 4 = .transmit .setVolume ∧ argLegal cfg .setVolume 31 = false := by decide

/-- `Map` at 14, 15, 22 and 23 with reply mode off, and at 14 with it on. -/
theorem test_witness_AcceptFollowsMap :
    (idleAt false []).phase = .idle ∧ mapCommand cfg 14 0 false = .send 0x18 false 0 false ∧
    mapCommand cfg 15 0 false = .send 0x42 false 0 true ∧ mapCommand cfg 22 0 false = .send 0x4D false 0 true ∧
    mapCommand cfg 23 0 false = .setLocal false ∧ mapCommand cfg 14 0 true = .send 0x18 true 0 true := by decide

theorem test_witness_OnlyCarriedOperandsReachTheFrame :
    (idleAt false []).phase = .idle ∧ (argLegal cfg .setVolume 30 = true ∧ carries .setVolume = true) ∧
      (argLegal cfg .next 0xABCD = true ∧ carries .next = false) := by decide

/-- The first and the last reserved identifier. -/
theorem test_witness_ReservedIdentifierIsInvalidArgument :
    (let s := idleAt false [{ cmdValid := true, cmdId := 24 }];
      s.phase = .idle ∧ (pins s).rst = false ∧ (pins s).cmdValid = true ∧ 24 ≤ (pins s).cmdId.toNat) ∧
    (let s := idleAt true [{ cmdValid := true, cmdId := 31, cmdArg := 0xFFFF }];
      s.phase = .idle ∧ (pins s).rst = false ∧ (pins s).cmdValid = true ∧ 24 ≤ (pins s).cmdId.toNat) := by decide

theorem test_witness_StepRunsTheDecodedCommand :
    let s := idleAt false [{ cmdValid := true, cmdId := 4, cmdArg := 28 }]
    s.phase = .idle ∧ (pins s).rst = false ∧ (pins s).cmdValid = true ∧
      decode (.commandWord (cmdWord (pins s).cmdId (pins s).cmdArg)) = .ok (.setVolume 28) := by decide

theorem test_witness_StepRunsTheDecodedReply :
    let s := recvAt 9 1 [{ rxValid := true, rxData := 0xEF, tick := true }]
    s.phase = .recv ∧ s.rxidx = 9 ∧ (pins s).rst = false ∧ (pins s).rxFault = false ∧ (pins s).rxValid = true ∧
      storeReceived (pins s).rxData (edge s) = some (edge s) ∧
      decode (.replyBytes (edge s).rxbuf.toList) = .ok (.replyVolume ⟨0xFF, 0x06, 0x00, 0x001C, 0xFE9C⟩) := by decide

/-- R32, R260: the byte on offer in the reset cycle is accepted by a ready channel, and the block is idle without a result. -/
theorem test_reset_cycle_hands_the_byte_over :
    let o := step (sendAt 9 [{ rst := true, txReady := true }])
    (after State.wire o, after State.phase o, after State.res o) = (some [0xEF], some .idle, some none) := by decide

theorem test_witness_ResetFromAnyState :
    (pins (sendAt 3 [{ rst := true }])).rst = true ∧ (pins (recvAt 3 1 [{ rst := true }])).rst = true ∧
      (let s := sendAt 0 [{ rst := true, txReady := true }];
        (pins s).rst = true ∧ (pins s).txReady = true ∧ s.phase = .send ∧ memRead s.txbuf s.txidx.toNat = some 0x7E) ∧
      let s := sendAt 9 [{ rst := true, txReady := true }];
      (pins s).rst = true ∧ (pins s).txReady = true ∧ s.phase = .send ∧ memRead s.txbuf s.txidx.toNat = some 0xEF := by decide

theorem test_witness_IdleIgnoresBytesFaultsAndTicks :
    let s := idleAt false [{ rxValid := true, rxData := 0x55, rxFault := true, tick := true }]
    s.phase = .idle ∧ (pins s).rst = false ∧ (pins s).cmdValid = false := by decide

/-- Byte 8 and byte 9. -/
theorem test_witness_TransmitStep :
    (let s := sendAt 8 [{ txReady := true }];
      s.phase = .send ∧ (pins s).rst = false ∧ (pins s).txReady = true ∧ memRead s.txbuf s.txidx.toNat = some 0xD9 ∧
        s.txidx.toNat < 9) ∧
    (let s := sendAt 9 [{ txReady := true }];
      s.phase = .send ∧ (pins s).rst = false ∧ (pins s).txReady = true ∧ memRead s.txbuf s.txidx.toNat = some 0xEF ∧
        s.txidx.toNat = 9) := by decide

theorem test_witness_StalledChannelHangs :
    let s := sendAt 4 [{ tick := true }, { rxFault := true }, { cmdValid := true }]
    s.phase = .send ∧ ∀ p ∈ s.inputs, p.rst = false ∧ p.txReady = false := by decide

/-- Byte 9 on offer, nine bytes on the wire. -/
theorem test_witness_SendEmitsTheFrameInOrder :
    let s := { sendAt 9 [{ txReady := true }] with wire := [0x7E, 0xFF, 0x06, 0x06, 0x00, 0x00, 0x1C, 0xFE, 0xD9] }
    s.phase = .send ∧ s.txidx.toNat ≤ 9 ∧ (pins s).rst = false ∧ s.wire = [] ++ s.txbuf.toList.take s.txidx.toNat ∧
      ∃ t, step s = .next t :=
  ⟨by decide, by decide, by decide, by decide, ⟨_, rfl⟩⟩

/-- A state that steps, for the statements about every step. -/
theorem test_witness_every_step :
    (∃ t, step (idleAt false [{ cmdValid := true, cmdId := 23, cmdArg := 1 }]) = .next t ∧ t.isReply = true) ∧
    (∃ t, step { sendAt 9 [{ rst := true }] with isReply := true } = .next t ∧ t.isReply = false) ∧
    (∃ t, step (sendAt 9 [{ txReady := true }]) = .next t ∧ (pins (sendAt 9 [{ txReady := true }])).rst = false) ∧
    (∃ t, step (recvAt 8 3 [{ rxValid := true }]) = .next t ∧ t.phase = .recv) :=
  ⟨⟨_, rfl, rfl⟩, ⟨_, rfl, rfl⟩, ⟨_, rfl, rfl⟩, ⟨_, rfl, rfl⟩⟩

/-- A step for each edge that ends a phase: a legal command; byte 9 with and without a reply awaited; a fault, the tenth byte
and the last tick in `RECV`, a fault with the tenth byte, and the last tick with the ninth byte. -/
theorem test_witness_PhaseGraph :
    ∀ s ∈ [idleAt false [{ cmdValid := true, cmdId := 22 }], sendAt 9 [{ txReady := true }],
        { sendAt 9 [{ txReady := true }] with isReply := true }, recvAt 3 2 [{ rxFault := true }],
        recvAt 9 2 [{ rxValid := true }], recvAt 3 1 [{ tick := true }], recvAt 9 1 [{ rxFault := true, rxValid := true }],
        recvAt 8 1 [{ rxValid := true, tick := true }]],
      (pins s).rst = false ∧ (after State.phase (step s)).isSome = true ∧ after State.phase (step s) ≠ some s.phase := by
  decide

/-- A state for each clause: a reset, an accepted command, a ready channel, a byte with a tick. -/
theorem test_witness_EveryConfigurationFollowsTheRules :
    (pins (sendAt 9 [{ rst := true, txReady := true }])).rst = true ∧
    (let s := idleAt false [{ cmdValid := true, cmdId := 4, cmdArg := 30 }]; (pins s).rst = false ∧ s.phase = .idle) ∧
    (let s := sendAt 9 [{ txReady := true }]; (pins s).rst = false ∧ s.phase = .send) ∧
    (let s := recvAt 9 1 [{ rxValid := true, tick := true }]; (pins s).rst = false ∧ s.phase = .recv) := by decide

/-- The ninth byte. -/
theorem test_witness_ReceivedByteIsStored :
    let s := recvAt 8 3 [{ rxValid := true, rxData := 0x9C }]
    s.phase = .recv ∧ (pins s).rst = false ∧ (pins s).rxFault = false ∧ (pins s).rxValid = true ∧
      (pins s).tick = false ∧ s.rxidx.toNat < 9 := by decide

theorem test_witness_TenthByteCompletesByParse :
    let s := recvAt 9 1 [{ rxValid := true, rxData := 0xEE, tick := true }]
    s.phase = .recv ∧ s.rxidx = 9 ∧ (pins s).rst = false ∧ (pins s).rxFault = false ∧ (pins s).rxValid = true := by decide

theorem test_witness_LinkFaultEndsOnlyAReceive :
    (let s := recvAt 9 1 [{ rxFault := true, rxValid := true, tick := true }];
      s.phase = .recv ∧ (pins s).rst = false ∧ (pins s).rxFault = true) ∧ (sendAt 0 []).phase ≠ .recv := by decide

/-- Two ticks left, and one. -/
theorem test_witness_TickCountsDownAReceive :
    (let s := recvAt 4 2 [{ tick := true }];
      s.phase = .recv ∧ (pins s).rst = false ∧ (pins s).rxFault = false ∧ (pins s).rxValid = false ∧
        (pins s).tick = true ∧ 1 < s.toCnt) ∧
    (let s := recvAt 4 1 [{ tick := true }];
      s.phase = .recv ∧ (pins s).rst = false ∧ (pins s).rxFault = false ∧ (pins s).rxValid = false ∧
        (pins s).tick = true ∧ s.toCnt ≤ 1) ∧ (idleAt false []).phase ≠ .recv := by decide

/-- Vector T6: three ticks. -/
theorem test_witness_TimeoutAtTheLastTick :
    let s := recvAt 0 3 [{ tick := true }, { tick := true }, { tick := true }]
    s.phase = .recv ∧ s.toCnt = 2 + 1 ∧
      (∀ p ∈ s.inputs.take (2 + 1), p.rst = false ∧ p.rxFault = false ∧ p.rxValid = false ∧ p.tick = true) ∧
      2 + 1 ≤ s.inputs.length := by decide

/-- A fault; byte 9 of 10 with two ticks left and with one; byte 10. -/
theorem test_witness_SameCyclePriority :
    (let s := recvAt 8 2 [{ rxFault := true, rxValid := true, tick := true }];
      s.phase = .recv ∧ (pins s).rst = false ∧ (pins s).rxValid = true ∧ (pins s).tick = true ∧ (pins s).rxFault = true) ∧
    (let s := recvAt 8 2 [{ rxValid := true, tick := true }];
      s.phase = .recv ∧ (pins s).rst = false ∧ (pins s).rxValid = true ∧ (pins s).tick = true ∧
        (pins s).rxFault = false ∧ s.rxidx.toNat < 9 ∧ 1 < s.toCnt) ∧
    (let s := recvAt 8 1 [{ rxValid := true, tick := true }];
      s.phase = .recv ∧ (pins s).rst = false ∧ (pins s).rxValid = true ∧ (pins s).tick = true ∧
        (pins s).rxFault = false ∧ s.rxidx.toNat < 9 ∧ s.toCnt ≤ 1) ∧
    (let s := recvAt 9 1 [{ rxValid := true, tick := true }];
      s.phase = .recv ∧ (pins s).rst = false ∧ (pins s).rxValid = true ∧ (pins s).tick = true ∧
        (pins s).rxFault = false ∧ s.rxidx.toNat = 9) := by decide

/-- The invariants hold at the last byte of a send and of a receive, and both states step. -/
theorem test_witness_StepKeepsTheInvariants :
    (Inv (sendAt 9 [{ txReady := true }]) ∧ ∃ t, step (sendAt 9 [{ txReady := true }]) = .next t) ∧
    (Inv (recvAt 9 1 [{ rxValid := true }]) ∧ ∃ t, step (recvAt 9 1 [{ rxValid := true }]) = .next t) :=
  ⟨⟨⟨by decide, by decide, by decide, fun _ => ⟨by decide, by decide, by decide, by decide, by decide, by decide⟩⟩, ⟨_, rfl⟩⟩,
    ⟨by decide, by decide, by decide, fun _ => ⟨by decide, by decide, by decide, by decide, by decide, by decide⟩⟩, ⟨_, rfl⟩⟩

theorem test_witness_PinsOfEachPhase :
    Inv (idleAt false []) ∧ Inv { idleAt false [] with res := some ⟨.okReply, .volume, 0x43, 0x001C⟩ } ∧
      Inv (sendAt 9 []) ∧ Inv (recvAt 9 1 []) :=
  ⟨⟨by decide, by decide, by decide, fun h => absurd rfl h⟩, ⟨by decide, by decide, by decide, fun h => absurd rfl h⟩,
    ⟨by decide, by decide, by decide, fun _ => ⟨by decide, by decide, by decide, by decide, by decide, by decide⟩⟩,
    ⟨by decide, by decide, by decide, fun _ => ⟨by decide, by decide, by decide, by decide, by decide, by decide⟩⟩⟩

theorem test_witness_ResultStaysLegal :
    (∀ r, (recvAt 9 1 [{ rxValid := true }]).res = some r → ResultLegal r) ∧
      ∃ t, step (recvAt 9 1 [{ rxValid := true }]) = .next t :=
  ⟨fun _ h => (nomatch h), ⟨_, rfl⟩⟩

/-- A query at either end of the eight, and a command in reply mode, in `RECV` and on the way into it. -/
theorem test_witness_ReceivesOnlyWhenAReplyIsExpected :
    (let s := { recvAt 8 3 [{ rxValid := true }] with cmdId := 22 };
      (s.phase = .recv → AwaitsReply s.cmdId s.isReply) ∧ ∃ t, step s = .next t ∧ t.phase = .recv) ∧
    (let s := { sendAt 9 [{ txReady := true }] with cmdId := 15 };
      (s.phase = .recv → AwaitsReply s.cmdId s.isReply) ∧ ∃ t, step s = .next t ∧ t.phase = .recv) ∧
    (let s := { sendAt 9 [{ txReady := true }] with cmdId := 14, isReply := true };
      (s.phase = .recv → AwaitsReply s.cmdId s.isReply) ∧ ∃ t, step s = .next t ∧ t.phase = .recv) :=
  ⟨⟨by decide, ⟨_, rfl, rfl⟩⟩, ⟨by decide, ⟨_, rfl, rfl⟩⟩, by decide, ⟨_, rfl, rfl⟩⟩

/-- Two receive phases that differ in the bytes not yet taken, at the last of them, and two idle states that differ in both
buffers. -/
theorem test_witness_DeadBufferBytesAreNeverObserved :
    (SameButDeadBytes (recvAt 9 1 [{ rxValid := true }]) { recvAt 9 1 [{ rxValid := true }] with rxbuf := v1.set 9 0x55 } ∧
      ∃ t, step (recvAt 9 1 [{ rxValid := true }]) = .next t) ∧
    (SameButDeadBytes (idleAt false []) { idleAt false [] with txbuf := v1, rxbuf := v1 } ∧
      ∃ t, step (idleAt false []) = .next t) := by
  refine ⟨⟨⟨rfl, rfl, rfl, rfl, rfl, rfl, rfl, rfl, rfl, rfl, rfl, fun _ => rfl, ?_⟩, ⟨_, rfl⟩⟩,
    ⟨⟨rfl, rfl, rfl, rfl, rfl, rfl, rfl, rfl, rfl, rfl, rfl, fun h => absurd rfl h, fun h => nomatch h⟩, ⟨_, rfl⟩⟩⟩
  intro _
  decide

/-- `SET_VOLUME 30` in ten accepting cycles, with ticks and faults in them. -/
theorem test_witness_FireAndForgetRun :
    let p : InPins := { cmdValid := true, cmdId := 4, cmdArg := 30 }
    let ps := List.replicate 10 ({ txReady := true, tick := true, rxFault := true } : InPins)
    let s := idleAt false (p :: (ps ++ []))
    s.phase = .idle ∧ s.isReply = false ∧ isQuery (idOfCmd .setVolume) = false ∧ s.inputs = p :: (ps ++ []) ∧
      p.rst = false ∧ p.cmdValid = true ∧ p.cmdId = idOfCmd .setVolume ∧ argLegal cfg .setVolume p.cmdArg = true ∧
      ps.length = 10 ∧ ∀ q ∈ ps, q.rst = false ∧ q.txReady = true := by decide

/-- `GET_VOLUME` with the reply V1, reply mode off, and `PLAY` in reply mode with the same frame. -/
theorem test_witness_CommandAndReplyRun :
    let ps := List.replicate 10 ({ txReady := true } : InPins)
    let qs := v1.toList.map fun b => ({ rxValid := true, rxData := b } : InPins)
    (let p : InPins := { cmdValid := true, cmdId := 16 };
      let s := idleAt false (p :: (ps ++ (qs ++ [])));
      s.phase = .idle ∧ expectsReply (idOfCmd .getVolume) s.isReply = true ∧ s.inputs = p :: (ps ++ (qs ++ [])) ∧
        p.rst = false ∧ p.cmdValid = true ∧ p.cmdId = idOfCmd .getVolume ∧ argLegal cfg .getVolume p.cmdArg = true) ∧
    (let p : InPins := { cmdValid := true, cmdId := 0 };
      let s := idleAt true (p :: (ps ++ (qs ++ [])));
      s.phase = .idle ∧ expectsReply (idOfCmd .play) s.isReply = true ∧ s.inputs = p :: (ps ++ (qs ++ [])) ∧
        p.rst = false ∧ p.cmdValid = true ∧ p.cmdId = idOfCmd .play ∧ argLegal cfg .play p.cmdArg = true) ∧
    ps.length = 10 ∧ (∀ q ∈ ps, q.rst = false ∧ q.txReady = true) ∧ qs.map InPins.rxData = v1.toList ∧
    ∀ q ∈ qs, q.rst = false ∧ q.rxFault = false ∧ q.rxValid = true ∧ q.tick = false := by decide

end Sys2Proof.Tests
end

section
/-! The statements of spec/00_scope.md: the two-byte write of R15, the reply map of a well-formed configuration (R10), and
the step in every configuration (R8). -/

namespace Sys2Proof.Machine

/-! ### Two-byte accesses -/

/-- Inside the buffer a two-byte write is the two one-byte writes, so it succeeds (R15). -/
theorem memWrite2_isSome_of_le (b : Frame) {i : Nat} (v : U16) (h : i ≤ 8) : ∃ b', memWrite2 b i v = some b' := by
  have hfirst : i < frameLen := by
    show i < 10
    omega
  have hsecond : i + 1 < frameLen := by
    show i + 1 < 10
    omega
  simp [memWrite2, memWrite_of_lt, hfirst, hsecond]

/-- What a two-byte write can do: it puts the high byte at `i`, the low byte at `i + 1` and leaves every other index alone. -/
theorem memWrite2_spec {b b' : Frame} {i : Nat} {v : U16} (h : memWrite2 b i v = some b') :
    i ≤ 8 ∧ memRead b' i = some (hi v) ∧ memRead b' (i + 1) = some (lo v) ∧
      ∀ j, j ≠ i → j ≠ i + 1 → memRead b' j = memRead b j := by
  obtain ⟨m, hfirst, hsecond⟩ := Option.bind_eq_some_iff.mp h
  obtain ⟨-, hhi, hrest⟩ := memWrite_spec hfirst
  obtain ⟨hlt, hlo, hrest'⟩ := memWrite_spec hsecond
  have h10 : i + 1 < 10 := hlt
  refine ⟨by omega, ?_, hlo, fun j hj hj' => ?_⟩
  · rw [hrest' i (by omega), hhi]
  · rw [hrest' j hj', hrest j hj]

theorem memWrite2_eq_none {b : Frame} {i : Nat} (v : U16) (h : 8 < i) : memWrite2 b i v = none :=
  Option.eq_none_iff_forall_ne_some.mpr fun _ hw => absurd (memWrite2_spec hw).1 (by omega)

/-- A two-byte read is the two one-byte reads, joined (R15). -/
theorem memRead2_of_reads {b : Frame} {i : Nat} {h l : Byte} (hh : memRead b i = some h)
    (hl : memRead b (i + 1) = some l) : memRead2 b i = some (cat h l) := by
  simp only [memRead2, hh, hl]

theorem memRead2_eq_none {b : Frame} {i : Nat} (h : 8 < i) : memRead2 b i = none := by
  have hl : memRead b (i + 1) = none := (memRead_eq_none b (i + 1)).mpr (Nat.succ_le_succ h)
  simp [memRead2, hl]

/-! ### The reply map -/

/-- The eleven lines of R156, each a reply byte and the kind it selects. -/
def replyLines (c : Cfg) : List (Byte × Kind) :=
  c.replyBytes.zip [.ack, .periphError, .mediaPresent, .playState, .volume, .countUsb, .countSd, .countFlash, .curUsb,
    .curSd, .curFlash]

theorem map_fst_replyLines (c : Cfg) : (replyLines c).map Prod.fst = c.replyBytes := rfl

theorem lookup_cons_getD {α β : Type} [DecidableEq α] (m a : α) (b d : β) (ls : List (α × β)) :
    (((a, b) :: ls).lookup m).getD d = if m = a then b else (ls.lookup m).getD d := by
  by_cases h : m = a
  · simp [h]
  · simp [List.lookup_cons, beq_false_of_ne h, h]

/-- `Classify` is the search for the first line of R156 with the byte, and `OTHER` where no line has it. -/
theorem classify_eq_lookup (c : Cfg) (m : Byte) : classify c m = ((replyLines c).lookup m).getD .other := by
  simp only [replyLines, Cfg.replyBytes, List.zip_cons_cons, lookup_cons_getD]
  rfl

/-- Where no two lines have the same key, each line is the first with its key. -/
theorem lookup_of_mem_of_nodup {α β : Type} [DecidableEq α] {ls : List (α × β)} (hn : (ls.map Prod.fst).Nodup)
    {a : α} {b : β} (h : (a, b) ∈ ls) : ls.lookup a = some b := by
  obtain ⟨before, after, rfl⟩ := List.mem_iff_append.mp h
  rw [List.map_append, List.nodup_append] at hn
  obtain ⟨-, -, hne⟩ := hn
  refine List.lookup_eq_some_iff.mpr ⟨before, after, rfl, fun p hp => ?_⟩
  have hpa : p.1 ≠ a := hne p.1 (List.mem_map_of_mem hp) a (by simp)
  simpa using hpa.symm

/-- In a well-formed configuration the byte of a line selects the kind of that line (R10, R156). -/
theorem classify_of_mem_replyLines {c : Cfg} (hc : c.WF) {line : Byte × Kind} (h : line ∈ replyLines c) :
    classify c line.1 = line.2 := by
  rw [classify_eq_lookup, lookup_of_mem_of_nodup (map_fst_replyLines c ▸ hc.replies) h, Option.getD_some]

/-- A byte that no line has is of kind `OTHER` (R156). -/
theorem classify_of_notMem_replyBytes {c : Cfg} {m : Byte} (h : m ∉ c.replyBytes) : classify c m = .other := by
  have hnone : (replyLines c).lookup m = none := by
    refine List.lookup_eq_none_iff.mpr fun line hline => ?_
    have hmem : line.1 ∈ c.replyBytes := map_fst_replyLines c ▸ List.mem_map_of_mem hline
    simpa using fun hm : m = line.1 => h (hm ▸ hmem)
  rw [classify_eq_lookup, hnone, Option.getD_none]

/-! ### The step in every configuration -/

/-- A cycle that begins in `RECV`: the fault alone, else the byte and then the tick (R134), in every configuration. -/
theorem recvCycle_eq (c : Cfg) (p : InPins) {s : State} (hp : s.phase = .recv) :
    recvCycle c (execIn c) p s =
      if p.rxFault then .next (rxFault s)
      else thenTick p.tick (if p.rxValid then rxByte c p.rxData s else .next s) := by
  unfold recvCycle
  rw [takeByteIn_eq c p.rxData hp]
  cases p.rxValid <;> rfl

end Sys2Proof.Machine

namespace Sys2Proof

open Machine

/-- Settles O14: the eleven lines of R156, each by its own byte, and every byte of no line. -/
theorem classifySelectsEachKind : Obligations.ClassifySelectsEachKind := by
  intro c hc
  have hlines : ∀ line ∈ replyLines c, classify c line.1 = line.2 := fun _ => classify_of_mem_replyLines hc
  refine ⟨?_, fun b => classify_of_notMem_replyBytes⟩
  simpa [replyLines, Cfg.replyBytes] using hlines

/-- Settles O60, with the cycle's law for a reset and for each phase. -/
theorem everyConfigurationFollowsTheRules : Obligations.EveryConfigurationFollowsTheRules :=
  ⟨fun c s =>
    ⟨fun hrst => cycleIn_rst c (execIn c) hrst (edge s),
      fun hrst hidle => cycleIn_idle c hrst (s := edge s) hidle,
      fun hrst hsend => cycleIn_send c (execIn c) hrst (s := edge s) hsend,
      fun hrst hrecv => (cycleIn_recv c (execIn c) hrst (s := edge s) hrecv).trans (recvCycle_eq c (pins s) hrecv)⟩,
    congrFun step_eq_stepIn⟩

/-- Settles O1, from what a two-byte write can do. -/
theorem wordWriteIsBigEndian : Obligations.WordWriteIsBigEndian := by
  intro b i v
  constructor
  · intro hi8
    obtain ⟨b', hw⟩ := memWrite2_isSome_of_le b v hi8
    obtain ⟨-, hhi, hlo, hrest⟩ := memWrite2_spec hw
    exact ⟨b', hw, hhi, hlo, by rw [memRead2_of_reads hhi hlo, cat_hi_lo], hrest⟩
  · exact fun hi8 => ⟨memWrite2_eq_none v hi8, memRead2_eq_none hi8⟩

end Sys2Proof
end

section
/-! The statements of spec/10_state.md: what a step keeps of the state (R39), what it changes and from where (R21 to R27), what
it never shows (R22, R23), and the pins of each phase (R30 to R34). -/

namespace Sys2Proof.Machine

/-! ### What each transfer step leaves unchanged -/

/-- `Accept` writes neither `RXBUF` nor the registers of the receive phase, and puts nothing on the wire (R180). -/
theorem accept_frame (c : Cfg) (id : CmdId) (a : U16) (s : State) :
    accept c id a s = { accept c id a s with
      rxbuf := s.rxbuf, rxidx := s.rxidx, toCnt := s.toCnt, wire := s.wire, inputs := s.inputs, clock := s.clock } := by
  rcases accept_spec c id a s with ⟨-, h⟩ | ⟨-, -, h⟩ | ⟨-, -, h⟩ | ⟨-, t, -, -, h⟩ <;> rw [h] <;> rfl

section
variable (c : Cfg) (id : CmdId) (a : U16) (s : State)
@[simp] theorem accept_rxbuf : (accept c id a s).rxbuf = s.rxbuf := by rw [accept_frame]
@[simp] theorem accept_rxidx : (accept c id a s).rxidx = s.rxidx := by rw [accept_frame]
@[simp] theorem accept_toCnt : (accept c id a s).toCnt = s.toCnt := by rw [accept_frame]
@[simp] theorem accept_wire : (accept c id a s).wire = s.wire := by rw [accept_frame]
@[simp] theorem accept_inputs : (accept c id a s).inputs = s.inputs := by rw [accept_frame]
@[simp] theorem accept_clock : (accept c id a s).clock = s.clock := by rw [accept_frame]
end

/-- `Accept` writes `IS_REPLY` for the one local command only (R21, R203). -/
theorem accept_isReply (c : Cfg) (id : CmdId) (a : U16) (s : State) :
    (accept c id a s).isReply = s.isReply ∨ s.phase = .idle ∧ id = 23 ∧ (accept c id a s).isReply = boolArg a := by
  rcases accept_spec c id a s with ⟨-, h⟩ | ⟨hidle, hclass, h⟩ | ⟨-, -, h⟩ | ⟨-, t, -, -, h⟩ <;> rw [h]
  · exact .inl rfl
  · exact .inr ⟨hidle, classOfId_eq_replyMode hclass, rfl⟩
  · exact .inl rfl
  · exact .inl rfl

/-- `Accept` writes `TXBUF` only on the way from `IDLE` to `SEND` (R22). -/
theorem accept_txbuf (c : Cfg) (id : CmdId) (a : U16) (s : State) :
    (accept c id a s).txbuf = s.txbuf ∨ s.phase = .idle ∧ (accept c id a s).phase = .send := by
  rcases accept_spec c id a s with ⟨-, h⟩ | ⟨-, -, h⟩ | ⟨-, -, h⟩ | ⟨hidle, t, -, -, h⟩ <;> rw [h]
  · exact .inl rfl
  · exact .inl rfl
  · exact .inl rfl
  · exact .inr ⟨hidle, rfl⟩

/-- A busy block ignores the command port (R30). -/
theorem accept_of_busy (c : Cfg) (id : CmdId) (a : U16) {s : State} (h : s.phase ≠ .idle) : accept c id a s = s := by
  rcases accept_spec c id a s with ⟨-, heq⟩ | ⟨hidle, -⟩ | ⟨hidle, -⟩ | ⟨hidle, -⟩
  · exact heq
  all_goals exact absurd hidle h

/-- The end of a send changes the phase, the result and the registers of the receive phase it may open (R124). -/
theorem endOfSend_frame (c : Cfg) (s : State) :
    endOfSend c s = { s with
      phase := (endOfSend c s).phase, res := (endOfSend c s).res, rxidx := (endOfSend c s).rxidx,
      toCnt := (endOfSend c s).toCnt } := by
  rcases endOfSend_spec c s with ⟨-, h⟩ | ⟨-, h⟩ <;> rw [h] <;> rfl

/-- A transmit step writes neither buffer and neither the operand latch nor the reply mode (R122). -/
theorem txAccept_frame {c : Cfg} {s t : State} (h : txAccept c s = .next t) :
    t = { s with
      phase := t.phase, res := t.res, txidx := t.txidx, rxidx := t.rxidx, toCnt := t.toCnt, wire := t.wire } := by
  rcases txAccept_spec h with ⟨-, rfl⟩ | ⟨-, b, -, ⟨-, rfl⟩ | ⟨-, rfl⟩⟩
  · rfl
  · rfl
  · rw [endOfSend_frame]
    rfl

theorem txAccept_isReply {c : Cfg} {s t : State} (h : txAccept c s = .next t) : t.isReply = s.isReply := by
  rw [txAccept_frame h]

/-- A transmit step leaves the wire alone or extends it by the byte on offer (R122). -/
theorem txAccept_wire {c : Cfg} {s t : State} (h : txAccept c s = .next t) :
    t.wire = s.wire ∨
      s.phase = .send ∧ ∃ b, memRead s.txbuf s.txidx.toNat = some b ∧ t.wire = s.wire ++ [b] := by
  rcases txAccept_spec h with ⟨-, rfl⟩ | ⟨hsend, b, hb, ⟨-, rfl⟩ | ⟨-, rfl⟩⟩
  · exact .inl rfl
  · exact .inr ⟨hsend, b, hb, rfl⟩
  · exact .inr ⟨hsend, b, hb, by rw [endOfSend_frame, emit_wire]⟩

/-- The completion by a reply changes the phase and the result (R130). -/
theorem completeReply_frame (c : Cfg) (s : State) :
    completeReply c s = { s with phase := (completeReply c s).phase, res := (completeReply c s).res } := by
  rcases completeReply_spec c s with ⟨m, v, h⟩ | h | h | h <;> rw [h] <;> rfl

theorem completeReply_phase (c : Cfg) (s : State) : (completeReply c s).phase = .idle := by
  rcases completeReply_spec c s with ⟨m, v, h⟩ | h | h | h <;> rw [h] <;> rfl

/-- A receive step writes `RXBUF` and `RXIDX`, and the phase and the result if it ends the command (R126, R127). -/
theorem rxByte_frame {c : Cfg} {b : Byte} {s t : State} (h : rxByte c b s = .next t) :
    t = { s with phase := t.phase, res := t.res, rxbuf := t.rxbuf, rxidx := t.rxidx } := by
  rcases rxByte_spec h with ⟨-, rfl⟩ | ⟨-, u, hu, hcase⟩
  · rfl
  · obtain ⟨buf, -, rfl⟩ := storeReceived_spec hu
    rcases hcase with ⟨-, rfl⟩ | ⟨-, rfl⟩
    · rfl
    · rw [completeReply_frame]

theorem rxByte_isReply {c : Cfg} {b : Byte} {s t : State} (h : rxByte c b s = .next t) : t.isReply = s.isReply := by
  rw [rxByte_frame h]

theorem rxByte_wire {c : Cfg} {b : Byte} {s t : State} (h : rxByte c b s = .next t) : t.wire = s.wire := by
  rw [rxByte_frame h]

/-! ### The transfer at the transmit port and the receive step, case by case -/

/-- Outside `SEND`, or without a ready channel, nothing is handed over (R32). -/
theorem handOver_eq_self {ready : Bool} {s : State} (h : s.phase ≠ .send ∨ ready = false) : handOver ready s = s := by
  rcases handOver_spec ready s with ⟨hsend, hready, -⟩ | ⟨-, heq⟩
  · simp [hsend, hready] at h
  · exact heq

/-- In `SEND` a ready channel accepts the byte on offer (R32). -/
theorem handOver_eq_emit {s : State} {b : Byte} (hsend : s.phase = .send)
    (hb : memRead s.txbuf s.txidx.toNat = some b) : handOver true s = emit b s := by
  simp [handOver, hsend, hb]

theorem rxByte_off (c : Cfg) (b : Byte) {s : State} (h : s.phase ≠ .recv) : rxByte c b s = .next s := by
  cases hp : s.phase with
  | recv => exact absurd hp h
  | idle | send => simp only [rxByte, hp]

/-- In `RECV` the byte is stored at `RXIDX`; bytes 0 to 8 advance it, byte 9 completes the command (R126, R127). -/
theorem rxByte_of_le (c : Cfg) (b : Byte) {s : State} (hrecv : s.phase = .recv) (hle : s.rxidx.toNat ≤ 9) :
    rxByte c b s = .next
      (if s.rxidx.toNat < 9 then
        { s with rxbuf := s.rxbuf.set s.rxidx.toNat b (Nat.lt_succ_of_le hle), rxidx := s.rxidx + 1 }
      else completeReply c { s with rxbuf := s.rxbuf.set s.rxidx.toNat b (Nat.lt_succ_of_le hle) }) := by
  simp only [rxByte, hrecv, storeReceived_of_le hle]
  split <;> rfl

/-- At an index that no buffer has there is nowhere to store the byte (log 8). -/
theorem rxByte_of_not_le (c : Cfg) (b : Byte) {s : State} (hrecv : s.phase = .recv) (h : ¬ s.rxidx.toNat ≤ 9) :
    rxByte c b s = .fault (.noSuchIndex s.rxidx.toNat) := by
  have hstore : storeReceived b s = none := by
    rw [storeReceived, (memWrite_eq_none s.rxbuf _ b).mpr (Nat.lt_of_not_le h), Option.map_none]
  simp only [rxByte, hrecv, hstore]

/-! ### What the other steps of a receive leave unchanged -/

/-- A link fault changes the phase and the result (R128). -/
theorem rxFault_frame (s : State) : rxFault s = { s with phase := (rxFault s).phase, res := (rxFault s).res } := by
  rcases rxFault_spec s with ⟨-, h⟩ | ⟨-, h⟩
  · rw [h]
  · rw [h, raise, complete]

@[simp] theorem rxFault_isReply (s : State) : (rxFault s).isReply = s.isReply := by rw [rxFault_frame]
@[simp] theorem rxFault_wire (s : State) : (rxFault s).wire = s.wire := by rw [rxFault_frame]

/-- A tick changes `TO_CNT`, or the phase and the result (R129). -/
theorem tick_frame (s : State) :
    tick s = { s with phase := (tick s).phase, res := (tick s).res, toCnt := (tick s).toCnt } := by
  rcases tick_spec s with ⟨-, h⟩ | ⟨-, -, h⟩ | ⟨-, -, h⟩
  · rw [h]
  · rw [h]
  · rw [h, raise, complete]

@[simp] theorem tick_isReply (s : State) : (tick s).isReply = s.isReply := by rw [tick_frame]
@[simp] theorem tick_wire (s : State) : (tick s).wire = s.wire := by rw [tick_frame]

/-- A reply row changes the phase and the result (R130). -/
theorem completeAs_frame (m : Byte) (k : Kind) (r : ReplyFields) (s : State) :
    completeAs m k r s = { s with phase := (completeAs m k r s).phase, res := (completeAs m k r s).res } := by
  rcases completeAs_spec m k r s with ⟨-, h⟩ | ⟨-, -, h⟩ | ⟨-, -, h⟩ <;> rw [h] <;> rfl

/-! ### What an instruction is -/

/-- Every instruction is the command that its command word decodes to, or the reply row that its command byte selects. -/
theorem encode_cases (i : Instr) :
    (∃ id a, encode i = .commandWord (cmdWord id a) ∧ decodeCommand (cmdWord id a) = .ok i) ∨
      ∃ m r, encode i = encodeReply cfg m r ∧ decodeReplyByte cfg m r = .ok i := by
  cases i
  case play a | playIndex a | next a | previous a | setVolume a | setEq a | setDevice a | sleep a | reset a | pause a
      | stop a | singleLoop a | singlePlay a | dacEnable a | randomPlay a | getState a | getVolume a | getUsbCount a
      | getSdCount a | getFlashCount a | getCurUsb a | getCurSd a | getCurFlash a | setReplyMode a =>
    refine .inl ⟨_, a, rfl, ?_⟩
    rw [decodeCommand, wordId_cmdWord, wordArg_cmdWord]
    rfl
  case replyAck r | replyPeriphError r | replyMediaPresent r | replyPlayState r | replyVolume r | replyCountUsb r
      | replyCountSd r | replyCountFlash r | replyCurUsb r | replyCurSd r | replyCurFlash r =>
    exact .inr ⟨_, r, rfl, rfl⟩

/-- The meaning of an instruction is an acceptance step or a completion by a reply row (R180, R130). -/
theorem exec_cases (i : Instr) :
    (∃ id a, encode i = .commandWord (cmdWord id a) ∧ decodeCommand (cmdWord id a) = .ok i ∧
        ∀ s, exec i s = .next (accept cfg id a s)) ∨
      ∃ m r, encode i = encodeReply cfg m r ∧ ∀ s, exec i s = .next (completeAs m (classify cfg m) r s) := by
  rcases encode_cases i with ⟨id, a, hcode, hdec⟩ | ⟨m, r, hcode, hdec⟩
  · refine .inl ⟨id, a, hcode, hdec, fun s => ?_⟩
    rw [exec_of_decodeCommand hdec, wordId_cmdWord, wordArg_cmdWord]
  · refine .inr ⟨m, r, hcode, fun s => ?_⟩
    rw [exec_eq_execIn, execIn_of_decodeReplyByte hdec]

/-! ### What a step keeps -/

/-- A cycle of this hardware that begins in `RECV`: the fault alone, else the byte and then the tick (R134). -/
theorem cycle_recv_eq {p : InPins} {s : State} (hr : p.rst = false) (hp : s.phase = .recv) :
    cycle p s = if p.rxFault then .next (rxFault s)
      else thenTick p.tick (if p.rxValid then rxByte cfg p.rxData s else .next s) := by
  rw [cycle_recv hr hp, exec_eq_execIn, recvCycle_eq cfg p hp]

/-- What holds of every reset block and is kept by the clock edge and by each transfer step is kept by a step. -/
theorem step_keeps {P : State → Prop} (hreset : ∀ s, P (resetBlock s)) (hedge : ∀ s, P s → P (edge s))
    (haccept : ∀ id a s, P s → P (accept cfg id a s)) (htx : ∀ s t, P s → txAccept cfg s = .next t → P t)
    (hfault : ∀ s, P s → P (rxFault s)) (hrx : ∀ b s t, P s → rxByte cfg b s = .next t → P t)
    (htick : ∀ s, P s → P (tick s)) {s t : State} (hs : P s) (h : step s = .next t) : P t := by
  have he : P (edge s) := hedge s hs
  rcases step_cases h with ⟨-, rfl⟩ | ⟨-, ⟨rfl, -⟩ | ⟨-, -, rfl⟩ | ⟨-, -, h⟩ | ⟨-, -, rfl⟩ |
    ⟨-, -, -, u, hu, ⟨-, rfl⟩ | ⟨-, rfl⟩⟩ | ⟨-, -, -, -, rfl⟩⟩
  · exact hreset _
  · exact he
  · exact haccept _ _ _ he
  · exact htx _ _ he h
  · exact hfault _ he
  · exact hrx _ _ _ he hu
  · exact htick _ (hrx _ _ _ he hu)
  · exact htick _ he

/-! ### The invariants of R39 -/

/-- An index below 9 advances without wrapping. -/
theorem index_succ_toNat {i : BitVec 4} (h : i.toNat < 9) : (i + 1).toNat = i.toNat + 1 := by
  bv_omega

/-- `T_TICKS` is at least 1 (R10). -/
theorem cfg_tTicks_pos : 1 ≤ cfg.tTicks := Nat.le_add_left 1 _

/-- An idle block meets the invariants: each of them speaks of a busy one. -/
theorem inv_of_idle {s : State} (h : s.phase = .idle) : Inv s where
  send hp := by simp [h] at hp
  recv hp := by simp [h] at hp
  result hp := absurd h hp
  frame hp := absurd h hp

theorem Inv.accept {s : State} (hs : Inv s) (id : CmdId) (a : U16) : Inv (accept cfg id a s) := by
  rcases accept_spec cfg id a s with ⟨-, h⟩ | ⟨hidle, -, h⟩ | ⟨-, -, h⟩ | ⟨-, t, -, -, h⟩ <;> rw [h]
  · exact hs
  · exact inv_of_idle hidle
  · exact inv_of_idle rfl
  · exact ⟨fun _ => by simp, nofun, fun _ => rfl, fun _ => frameBuilt_buildFn _ _ _⟩

theorem Inv.endOfSend {s : State} (hs : Inv s) (hbusy : s.phase ≠ .idle) : Inv (endOfSend cfg s) := by
  rcases endOfSend_spec cfg s with ⟨-, h⟩ | ⟨-, h⟩ <;> rw [h]
  · exact ⟨nofun, fun _ => ⟨by simp, cfg_tTicks_pos⟩, fun _ => hs.result hbusy, fun _ => hs.frame hbusy⟩
  · exact inv_of_idle rfl

theorem Inv.emit {s : State} (hs : Inv s) (b : Byte) : Inv (emit b s) := ⟨hs.send, hs.recv, hs.result, hs.frame⟩

theorem Inv.txAccept {s t : State} (hs : Inv s) (h : txAccept cfg s = .next t) : Inv t := by
  rcases txAccept_spec h with ⟨-, rfl⟩ | ⟨hsend, b, -, ⟨hlt, rfl⟩ | ⟨-, rfl⟩⟩
  · exact hs
  · refine ⟨fun _ => ?_, hs.recv, hs.result, hs.frame⟩
    show (s.txidx + 1).toNat ≤ 9
    rw [index_succ_toNat hlt]
    omega
  · exact (hs.emit b).endOfSend (by simp [hsend])

theorem Inv.rxByte {s t : State} (hs : Inv s) {b : Byte} (h : rxByte cfg b s = .next t) : Inv t := by
  rcases rxByte_spec h with ⟨-, rfl⟩ | ⟨hrecv, u, hu, ⟨hlt, rfl⟩ | ⟨-, rfl⟩⟩
  · exact hs
  · obtain ⟨buf, -, rfl⟩ := storeReceived_spec hu
    refine ⟨hs.send, fun _ => ⟨?_, (hs.recv hrecv).2⟩, hs.result, hs.frame⟩
    show (s.rxidx + 1).toNat ≤ 9
    rw [index_succ_toNat hlt]
    omega
  · exact inv_of_idle (completeReply_phase cfg u)

theorem Inv.rxFault {s : State} (hs : Inv s) : Inv (rxFault s) := by
  rcases rxFault_spec s with ⟨-, h⟩ | ⟨-, h⟩ <;> rw [h]
  · exact hs
  · exact inv_of_idle rfl

theorem Inv.tick {s : State} (hs : Inv s) : Inv (tick s) := by
  rcases tick_spec s with ⟨-, h⟩ | ⟨hrecv, hlt, h⟩ | ⟨-, -, h⟩ <;> rw [h]
  · exact hs
  · exact ⟨hs.send, fun _ => ⟨(hs.recv hrecv).1, Nat.le_sub_one_of_lt hlt⟩, hs.result, hs.frame⟩
  · exact inv_of_idle rfl

/-- A receive step stops only for an `RXIDX` that no buffer has (log 8). -/
theorem rxByte_next {c : Cfg} {s : State} (b : Byte) (h : s.phase = .recv → s.rxidx.toNat ≤ 9) :
    ∃ t, rxByte c b s = .next t := by
  by_cases hrecv : s.phase = .recv
  · exact ⟨_, rxByte_of_le c b hrecv (h hrecv)⟩
  · exact ⟨s, rxByte_off c b hrecv⟩

/-- Under the invariants every cycle gives a next state, whatever the pins (R24, R39). -/
theorem cycle_next {p : InPins} {s : State} (hs : Inv s) : ∃ t, cycle p s = .next t := by
  cases hr : p.rst
  · cases hp : s.phase with
    | idle => exact ⟨_, cycle_idle hr hp⟩
    | send =>
      rw [cycle_send hr hp]
      split
      · exact txAccept_next hs.send
      · exact ⟨_, rfl⟩
    | recv =>
      obtain ⟨t, ht⟩ : ∃ t, (if p.rxValid then rxByte cfg p.rxData s else .next s) = .next t := by
        split
        · exact rxByte_next _ fun hrecv => (hs.recv hrecv).1
        · exact ⟨_, rfl⟩
      rw [cycle_recv_eq hr hp, ht]
      split <;> exact ⟨_, rfl⟩
  · exact ⟨_, cycle_rst hr s⟩

/-! ### The result register -/

/-- `RES` holds nothing or a result that the block may report (R27, R162). -/
def ResLegal (s : State) : Prop := ∀ r, s.res = some r → ResultLegal r

theorem resLegal_of_res_eq {s t : State} (hs : ResLegal s) (h : t.res = s.res) : ResLegal t :=
  fun r hr => hs r (h ▸ hr)

theorem resLegal_of_none {s : State} (h : s.res = none) : ResLegal s :=
  fun _ hr => absurd (h.symm.trans hr) nofun

theorem resLegal_of_some {s : State} {r : Result} (h : s.res = some r) (hr : ResultLegal r) : ResLegal s :=
  fun _ hr' => Option.some.inj (h.symm.trans hr') ▸ hr

/-- A decoded reply is a legal result: its kind is that of its command byte (R156). -/
theorem resultLegal_reply (m : Byte) (v : U16) : ResultLegal ⟨.okReply, classify cfg m, m, v⟩ :=
  ⟨fun _ => rfl, fun h => absurd rfl h, nofun⟩

/-- A result without a reply is legal for every status but the two that `raise` never has (R27, R162). -/
theorem resultLegal_bareResult {st : Status} (hreply : st ≠ .okReply) (hlen : st ≠ .protoBadLength) :
    ResultLegal (bareResult st) :=
  ⟨fun h => absurd h hreply, fun _ => ⟨rfl, rfl, rfl⟩, hlen⟩

theorem ResLegal.accept {s : State} (hs : ResLegal s) (id : CmdId) (a : U16) : ResLegal (accept cfg id a s) := by
  rcases accept_spec cfg id a s with ⟨-, h⟩ | ⟨-, -, h⟩ | ⟨-, -, h⟩ | ⟨-, t, -, -, h⟩ <;> rw [h]
  · exact hs
  · exact resLegal_of_some rfl (resultLegal_bareResult nofun nofun)
  · exact resLegal_of_some rfl (resultLegal_bareResult nofun nofun)
  · exact resLegal_of_none rfl

theorem ResLegal.txAccept {s t : State} (hs : ResLegal s) (h : txAccept cfg s = .next t) : ResLegal t := by
  rcases txAccept_spec h with ⟨-, rfl⟩ | ⟨-, b, -, ⟨-, rfl⟩ | ⟨-, rfl⟩⟩
  · exact hs
  · exact resLegal_of_res_eq hs rfl
  · rcases endOfSend_spec cfg (emit b s) with ⟨-, h⟩ | ⟨-, h⟩ <;> rw [h]
    · exact resLegal_of_res_eq hs rfl
    · exact resLegal_of_some rfl (resultLegal_bareResult nofun nofun)

theorem resLegal_completeReply (s : State) : ResLegal (completeReply cfg s) := by
  rcases completeReply_spec cfg s with ⟨m, v, h⟩ | h | h | h <;> rw [h]
  · exact resLegal_of_some rfl (resultLegal_reply m v)
  all_goals exact resLegal_of_some rfl (resultLegal_bareResult nofun nofun)

theorem ResLegal.rxByte {s t : State} (hs : ResLegal s) {b : Byte} (h : rxByte cfg b s = .next t) : ResLegal t := by
  rcases rxByte_spec h with ⟨-, rfl⟩ | ⟨-, u, hu, ⟨-, rfl⟩ | ⟨-, rfl⟩⟩
  · exact hs
  · obtain ⟨buf, -, rfl⟩ := storeReceived_spec hu
    exact resLegal_of_res_eq hs rfl
  · exact resLegal_completeReply u

theorem ResLegal.rxFault {s : State} (hs : ResLegal s) : ResLegal (rxFault s) := by
  rcases rxFault_spec s with ⟨-, h⟩ | ⟨-, h⟩ <;> rw [h]
  · exact hs
  · exact resLegal_of_some rfl (resultLegal_bareResult nofun nofun)

theorem ResLegal.tick {s : State} (hs : ResLegal s) : ResLegal (tick s) := by
  rcases tick_spec s with ⟨-, h⟩ | ⟨-, -, h⟩ | ⟨-, -, h⟩ <;> rw [h]
  · exact hs
  · exact resLegal_of_res_eq hs rfl
  · exact resLegal_of_some rfl (resultLegal_bareResult nofun nofun)

/-! ### Dead buffer bytes -/

/-- Two outcomes that are the same but for dead buffer bytes: two such next states, or the same stop. -/
inductive SameOutcome : StepOutcome → StepOutcome → Prop
  | next {s t : State} (h : SameButDeadBytes s t) : SameOutcome (.next s) (.next t)
  | fault (f : Fault) : SameOutcome (.fault f) (.fault f)

namespace SameButDeadBytes

variable {s t : State}

theorem edge (h : SameButDeadBytes s t) : SameButDeadBytes (edge s) (edge t) :=
  { h with inputs := congrArg List.tail h.inputs, clock := congrArg (· + 1) h.clock }

theorem latch (h : SameButDeadBytes s t) (id : CmdId) (a : U16) : SameButDeadBytes (latch id a s) (latch id a t) :=
  { h with cmdId := rfl, arg := rfl, res := rfl }

/-- Once a command is complete both buffers are dead. -/
theorem complete (h : SameButDeadBytes s t) (r : Result) : SameButDeadBytes (complete r s) (complete r t) :=
  { h with phase := rfl, res := rfl, txbuf := fun hbusy => absurd rfl hbusy, rxbuf := nofun }

theorem setReplyMode (h : SameButDeadBytes s t) (m : Bool) :
    SameButDeadBytes (setReplyMode m s) (setReplyMode m t) :=
  { h with isReply := rfl, res := rfl }

/-- The build writes all ten bytes of `TXBUF` before a send makes them live (R106). -/
theorem beginSend_build (h : SameButDeadBytes s t) (c : Cfg) (op : Byte) (ack : Bool) (arg : U16) :
    SameButDeadBytes (beginSend (build c op ack arg s)) (beginSend (build c op ack arg t)) :=
  { h with phase := rfl, txidx := rfl, txbuf := fun _ => rfl, rxbuf := nofun }

/-- A receive phase opens with no byte of `RXBUF` taken (R23). -/
theorem beginReceive (h : SameButDeadBytes s t) (c : Cfg) (hbusy : s.phase ≠ .idle) :
    SameButDeadBytes (beginReceive c s) (beginReceive c t) :=
  { h with phase := rfl, rxidx := rfl, toCnt := rfl, txbuf := fun _ => h.txbuf hbusy,
           rxbuf := fun _ _ hj => absurd hj (Nat.not_lt_zero _) }

theorem emit (h : SameButDeadBytes s t) (b : Byte) : SameButDeadBytes (emit b s) (emit b t) :=
  { h with wire := congrArg (· ++ [b]) h.wire }

/-- A reset forgets the buffers on both sides (R36). -/
theorem resetBlock (h : SameButDeadBytes s t) : SameButDeadBytes (resetBlock s) (resetBlock t) := by
  unfold Machine.resetBlock
  rw [h.clock, h.wire, h.inputs]
  exact ⟨rfl, rfl, rfl, rfl, rfl, rfl, rfl, rfl, rfl, rfl, rfl, fun _ => rfl, fun _ _ _ => rfl⟩

/-- While a command is sent, the byte on offer is the same (R32). -/
theorem memRead_txbuf (h : SameButDeadBytes s t) (hsend : s.phase = .send) :
    memRead s.txbuf s.txidx.toNat = memRead t.txbuf t.txidx.toNat := by
  rw [h.txbuf (by simp [hsend]), h.txidx]

theorem handOver (h : SameButDeadBytes s t) (ready : Bool) :
    SameButDeadBytes (handOver ready s) (handOver ready t) := by
  unfold Machine.handOver
  rw [← h.phase]
  split
  · rename_i hsend
    rw [← h.memRead_txbuf hsend]
    cases memRead s.txbuf s.txidx.toNat with
    | none => simpa using h
    | some b => cases ready <;> [exact h; exact h.emit b]
  · exact h
  · exact h

theorem accept (h : SameButDeadBytes s t) (c : Cfg) (id : CmdId) (a : U16) :
    SameButDeadBytes (accept c id a s) (accept c id a t) := by
  unfold Machine.accept
  rw [← h.phase, ← h.isReply]
  split
  · dsimp only
    split
    · exact (h.latch id a).complete _
    · exact (h.latch id a).setReplyMode _
    · split
      · exact (h.latch id a).beginSend_build _ _ _ _
      · exact (h.latch id a).complete _
  · exact h
  · exact h

theorem endOfSend (h : SameButDeadBytes s t) (c : Cfg) (hbusy : s.phase ≠ .idle) :
    SameButDeadBytes (endOfSend c s) (endOfSend c t) := by
  unfold Machine.endOfSend
  rw [← h.cmdId, ← h.isReply]
  split
  · exact h.beginReceive c hbusy
  · exact h.complete _

theorem txAccept (h : SameButDeadBytes s t) (c : Cfg) : SameOutcome (txAccept c s) (txAccept c t) := by
  unfold Machine.txAccept
  rw [← h.phase]
  split
  · rename_i hsend
    rw [← h.memRead_txbuf hsend, ← h.txidx]
    split
    · exact .fault _
    · rename_i b _
      split
      · exact .next { h.emit b with txidx := rfl }
      · exact .next ((h.emit b).endOfSend c (by simp [hsend]))
  · exact .next h
  · exact .next h

theorem rxFault (h : SameButDeadBytes s t) : SameButDeadBytes (rxFault s) (rxFault t) := by
  unfold Machine.rxFault
  rw [← h.phase]
  split
  · exact h.complete _
  · exact h
  · exact h

theorem tick (h : SameButDeadBytes s t) : SameButDeadBytes (tick s) (tick t) := by
  unfold Machine.tick
  rw [← h.phase, ← h.toCnt]
  split
  · split
    · exact { h with phase := rfl, toCnt := rfl }
    · exact h.complete _
  · exact h
  · exact h

theorem withRxbuf (h : SameButDeadBytes s t) {b b' : Frame} (hb : b = b') :
    SameButDeadBytes { s with rxbuf := b } { t with rxbuf := b' } :=
  { h with rxbuf := fun _ j _ => congrArg (memRead · j) hb }

/-- A reply is judged by the ten bytes of `RXBUF` alone (R130). -/
theorem completeReply (h : SameButDeadBytes s t) (c : Cfg) (hbuf : s.rxbuf = t.rxbuf) :
    SameButDeadBytes (completeReply c s) (completeReply c t) := by
  unfold Machine.completeReply
  rw [← hbuf]
  split <;> exact h.complete _

end SameButDeadBytes

/-- A buffer is what its ten indices read. -/
theorem frame_eq_of_memRead {b b' : Frame} (h : ∀ j, j < frameLen → memRead b j = memRead b' j) : b = b' := by
  refine Vector.ext fun j hj => ?_
  have hread := h j hj
  rw [memRead_of_lt b j hj, memRead_of_lt b' j hj] at hread
  exact Option.some.inj hread

/-- A byte written at the same index of two buffers that agree below it makes them agree up to it. -/
theorem memRead_eq_of_memWrite {b b' m m' : Frame} {i : Nat} {v : Byte}
    (h : ∀ j, j < i → memRead b j = memRead b' j) (hw : memWrite b i v = some m) (hw' : memWrite b' i v = some m') :
    ∀ j, j < i + 1 → memRead m j = memRead m' j := by
  obtain ⟨-, hat, hrest⟩ := memWrite_spec hw
  obtain ⟨-, hat', hrest'⟩ := memWrite_spec hw'
  intro j hj
  by_cases hji : j = i
  · rw [hji, hat, hat']
  · rw [hrest j hji, hrest' j hji, h j (by omega)]

/-- After the byte at `RXIDX` is stored on both sides, every byte up to it agrees (R23, R126). -/
theorem SameButDeadBytes.memRead_stored {s t : State} (h : SameButDeadBytes s t) (hrecv : s.phase = .recv)
    (hs : s.rxidx.toNat ≤ 9) (ht : t.rxidx.toNat ≤ 9) (b : Byte) (j : Nat) (hj : j < s.rxidx.toNat + 1) :
    memRead (s.rxbuf.set s.rxidx.toNat b (Nat.lt_succ_of_le hs)) j =
      memRead (t.rxbuf.set t.rxidx.toNat b (Nat.lt_succ_of_le ht)) j := by
  refine memRead_eq_of_memWrite (h.rxbuf hrecv) (memWrite_of_lt _ _ b (Nat.lt_succ_of_le hs)) ?_ j hj
  rw [h.rxidx]
  exact memWrite_of_lt _ _ b (Nat.lt_succ_of_le ht)

/-- A byte taken is stored on both sides, so the bytes below the new `RXIDX` agree, and all ten at the last (R23, R126). -/
theorem SameButDeadBytes.rxByte {s t : State} (h : SameButDeadBytes s t) (c : Cfg) (b : Byte) :
    SameOutcome (rxByte c b s) (rxByte c b t) := by
  by_cases hrecv : s.phase = .recv
  · have hrecv' : t.phase = .recv := h.phase ▸ hrecv
    by_cases hle : s.rxidx.toNat ≤ 9
    · have hle' : t.rxidx.toNat ≤ 9 := h.rxidx ▸ hle
      have hread := h.memRead_stored hrecv hle hle' b
      rw [rxByte_of_le c b hrecv hle, rxByte_of_le c b hrecv' hle']
      refine .next ?_
      by_cases hlt : s.rxidx.toNat < 9
      · rw [if_pos hlt, if_pos (h.rxidx ▸ hlt)]
        exact { h with
          rxidx := congrArg (· + 1) h.rxidx
          rxbuf := fun _ j hj => hread j (index_succ_toNat hlt ▸ hj) }
      · rw [if_neg hlt, if_neg (h.rxidx ▸ hlt)]
        have hbuf := frame_eq_of_memRead fun j (hj : j < 10) => hread j (by omega)
        exact (h.withRxbuf hbuf).completeReply c hbuf
    · rw [rxByte_of_not_le c b hrecv hle, rxByte_of_not_le c b hrecv' (h.rxidx ▸ hle), h.rxidx]
      exact .fault _
  · rw [rxByte_off c b hrecv, rxByte_off c b (h.phase ▸ hrecv)]
    exact .next h

theorem SameOutcome.thenTick {o o' : StepOutcome} (h : SameOutcome o o') (on : Bool) :
    SameOutcome (thenTick on o) (thenTick on o') := by
  cases h with
  | next h => cases on <;> [exact .next h; exact .next h.tick]
  | fault f => exact .fault f

/-- With the same pins, two states that differ in dead bytes only go through the same cycle. -/
theorem SameButDeadBytes.cycle {s t : State} (h : SameButDeadBytes s t) (p : InPins) :
    SameOutcome (cycle p s) (cycle p t) := by
  cases hr : p.rst
  · cases hp : s.phase with
    | idle =>
      rw [cycle_idle hr hp, cycle_idle hr (h.phase ▸ hp)]
      split
      · exact .next (h.accept cfg _ _)
      · exact .next h
    | send =>
      rw [cycle_send hr hp, cycle_send hr (h.phase ▸ hp)]
      split
      · exact h.txAccept cfg
      · exact .next h
    | recv =>
      rw [cycle_recv_eq hr hp, cycle_recv_eq hr (h.phase ▸ hp)]
      split
      · exact .next h.rxFault
      · refine SameOutcome.thenTick ?_ p.tick
        split
        · exact h.rxByte cfg _
        · exact .next h
  · rw [cycle_rst hr, cycle_rst hr]
    exact .next (h.handOver p.txReady).resetBlock

theorem SameButDeadBytes.step {s t : State} (h : SameButDeadBytes s t) : SameOutcome (step s) (step t) := by
  have hpins : pins s = pins t := congrArg (fun l : List InPins => l.headD {}) h.inputs
  rw [step_eq, step_eq, hpins]
  exact h.edge.cycle (pins t)

/-- No pin with a value shows a dead byte (R31, R32). -/
theorem SameButDeadBytes.outPins {s t : State} (h : SameButDeadBytes s t) : SamePins (outPins s) (outPins t) := by
  have hresult : resultPins s = resultPins t := by simp only [resultPins, h.res, h.clock]
  refine ⟨?_, ?_, ?_, ?_, ?_, fun _ => ?_, fun hvalid => ?_⟩
  · simp only [Machine.outPins, cmdReady, h.phase]
  · simp only [Machine.outPins, resValid, h.res]
  · simp only [Machine.outPins, busy, h.phase]
  · simp only [Machine.outPins, txValid, h.phase]
  · simp only [Machine.outPins, rxReady, h.phase]
  · simp only [Machine.outPins, hresult, and_self]
  · have hsend : s.phase = .send := of_decide_eq_true hvalid
    have hsend' : t.phase = .send := h.phase ▸ hsend
    simp only [Machine.outPins, txData, hsend, hsend', h.memRead_txbuf hsend, h.clock]

/-! ### The output pins -/

/-- The nine statuses and their codes (R27). -/
theorem statusCode_table :
    ∀ x ∈ [(Status.okVoid, (0 : BitVec 4)), (.okReply, 1), (.invalidArgument, 2), (.linkError, 3), (.timeoutError, 4),
      (.protoBadLength, 5), (.protoBadStart, 6), (.protoBadEnd, 7), (.protoChecksum, 8)], statusCode x.1 = x.2 := by
  decide

/-- The thirteen kinds and their codes (R27). -/
theorem kindCode_table :
    ∀ x ∈ [(Kind.none, (0 : BitVec 4)), (.ack, 1), (.playState, 2), (.volume, 3), (.mediaPresent, 4), (.countUsb, 5),
      (.countSd, 6), (.countFlash, 7), (.curUsb, 8), (.curSd, 9), (.curFlash, 10), (.periphError, 11), (.other, 12)],
      kindCode x.1 = x.2 := by
  decide

/-- The result pins show the result in `RES` (R31). -/
theorem resultPins_of_some {s : State} {r : Result} (h : s.res = some r) :
    resultPins s = (statusCode r.status, kindCode r.kind, r.cmd, r.value) := by
  simp only [resultPins, h]

/-- While busy no result shows (R34, R39). -/
theorem Inv.resValid_eq_false {s : State} (hs : Inv s) (hbusy : s.phase ≠ .idle) : resValid s = false := by
  simp only [resValid, hs.result hbusy, Option.isSome_none]

/-- In `SEND` the byte on offer is `TXBUF[TXIDX]` (R32). -/
theorem Inv.memRead_txData {s : State} (hs : Inv s) (hsend : s.phase = .send) :
    memRead s.txbuf s.txidx.toNat = some (txData s) := by
  have hlt : s.txidx.toNat < frameLen := Nat.lt_succ_of_le (hs.send hsend)
  simp only [txData, hsend, memRead_of_lt _ _ hlt, Option.getD_some]

end Sys2Proof.Machine

namespace Sys2Proof

open Machine

/-- Settles O50: each transfer step keeps the four invariants. -/
theorem stepKeepsTheInvariants : Obligations.StepKeepsTheInvariants := fun _ _ =>
  step_keeps (fun _ => inv_of_idle rfl) (fun _ hs => ⟨hs.send, hs.recv, hs.result, hs.frame⟩)
    (fun id a _ hs => hs.accept id a) (fun _ _ hs h => hs.txAccept h) (fun _ hs => hs.rxFault)
    (fun _ _ _ hs h => hs.rxByte h) (fun _ hs => hs.tick)

/-- Settles O56: the step respects the relation, and related states show the same pins. -/
theorem deadBufferBytesAreNeverObserved : Obligations.DeadBufferBytesAreNeverObserved := by
  intro s s' t hsame hstep
  have hout := hsame.step
  rw [hstep] at hout
  generalize step s' = o at hout ⊢
  cases hout with
  | next h => exact ⟨_, rfl, h, h.outPins⟩

/-- Settles O28: a command is an acceptance step, which a busy block ignores; a reply row is a completion, which only the
tenth byte of a receive calls for. -/
theorem instructionOutOfItsPhaseChangesNothing : Obligations.InstructionOutOfItsPhaseChangesNothing := by
  intro i s
  rcases exec_cases i with ⟨id, a, hcode, -, hexec⟩ | ⟨m, r, hcode, hexec⟩ <;> rw [hexec, hcode]
  · exact ⟨fun _ hbusy => by rw [accept_of_busy cfg id a hbusy], nofun⟩
  · refine ⟨nofun, fun _ hmoment => ?_⟩
    rw [completeAs, if_neg hmoment]

/-- Settles O29, from the frame of the acceptance step and that of a completion. -/
theorem instructionFrames : Obligations.InstructionFrames := by
  intro i s t h
  rcases exec_cases i with ⟨id, a, hcode, hdec, hexec⟩ | ⟨m, r, -, hexec⟩
  · have hcommand : ∃ w, encode i = .commandWord w := ⟨_, hcode⟩
    obtain rfl : accept cfg id a s = t := by simpa [hexec] using h
    refine ⟨fun j => by rw [accept_rxbuf], accept_rxidx _ _ _ _, accept_toCnt _ _ _ _, accept_wire _ _ _ _,
      accept_inputs _ _ _ _, accept_clock _ _ _ _, ?_, ?_, .inl hcommand⟩
    · refine (accept_isReply cfg id a s).imp_right ?_
      rintro ⟨-, rfl, -⟩
      rw [decodeCommand, wordId_cmdWord] at hdec
      exact ⟨_, (Except.ok.inj hdec).symm⟩
    · exact (accept_txbuf cfg id a s).imp (fun htx j => by rw [htx]) fun hsend => ⟨hcommand, hsend⟩
  · obtain rfl : completeAs m (classify cfg m) r s = t := by simpa [hexec] using h
    rw [completeAs_frame]
    exact ⟨fun _ => rfl, rfl, rfl, rfl, rfl, rfl, .inl rfl, .inl fun _ => rfl, .inr ⟨rfl, rfl, rfl, rfl⟩⟩

/-- Settles O42: only a transmit step, or the transfer in a reset cycle, writes the wire. -/
theorem wireGrowsByTheByteOnOffer : Obligations.WireGrowsByTheByteOnOffer := by
  intro s t h
  rcases step_cases h with ⟨-, rfl⟩ | ⟨-, ⟨rfl, -⟩ | ⟨-, -, rfl⟩ | ⟨-, hready, h⟩ | ⟨-, -, rfl⟩ |
    ⟨-, -, -, u, hu, ⟨-, rfl⟩ | ⟨-, rfl⟩⟩ | ⟨-, -, -, -, rfl⟩⟩
  · rw [resetBlock_wire]
    rcases handOver_spec (pins s).txReady (edge s) with ⟨hsend, hready, b, hb, h⟩ | ⟨-, h⟩ <;> rw [h]
    · exact .inr ⟨hsend, hready, b, hb, rfl⟩
    · exact .inl rfl
  · exact .inl rfl
  · exact .inl (accept_wire _ _ _ _)
  · exact (txAccept_wire h).imp_right fun ⟨hsend, hbyte⟩ => ⟨hsend, hready, hbyte⟩
  · exact .inl (rxFault_wire _)
  · exact .inl (rxByte_wire hu :)
  · exact .inl ((tick_wire u).trans (rxByte_wire hu :))
  · exact .inl (tick_wire _)

/-- Settles O51. -/
theorem invariantStatesAlwaysStep : Obligations.InvariantStatesAlwaysStep :=
  fun s hs => cycle_next (p := pins s) (s := edge s) ⟨hs.send, hs.recv, hs.result, hs.frame⟩

/-- Settles O52: of all transfer steps only the acceptance and the reset write `IS_REPLY`. -/
theorem replyModeHasOneMutator : Obligations.ReplyModeHasOneMutator := by
  intro s t h hne
  rcases step_cases h with ⟨hrst, rfl⟩ | ⟨-, ⟨rfl, -⟩ | ⟨hidle, hvalid, rfl⟩ | ⟨-, -, h⟩ | ⟨-, -, rfl⟩ |
    ⟨-, -, -, u, hu, ⟨-, rfl⟩ | ⟨-, rfl⟩⟩ | ⟨-, -, -, -, rfl⟩⟩
  · exact .inl ⟨hrst, rfl⟩
  · exact absurd rfl hne
  · rcases accept_isReply cfg (pins s).cmdId (pins s).cmdArg (edge s) with hsame | ⟨-, hid, hmode⟩
    · exact absurd hsame hne
    · exact .inr ⟨hidle, hvalid, hid, hmode⟩
  · exact absurd (txAccept_isReply h) hne
  · exact absurd (rxFault_isReply _) hne
  · exact absurd (rxByte_isReply hu) hne
  · exact absurd ((tick_isReply u).trans (rxByte_isReply hu)) hne
  · exact absurd (tick_isReply _) hne

/-- Settles O54: each transfer step leaves `RES` as it is, empties it, or writes a legal result. -/
theorem resultStaysLegal : Obligations.ResultStaysLegal := fun _ _ =>
  step_keeps (P := ResLegal) (fun _ => resLegal_of_none rfl) (fun _ hs => hs)
    (fun id a _ hs => hs.accept id a) (fun _ _ hs h => hs.txAccept h) (fun _ hs => hs.rxFault)
    (fun _ _ _ hs h => hs.rxByte h) (fun _ hs => hs.tick)

/-- Settles O34: both sides are the acceptance step of the word's identifier and operand. -/
theorem stepRunsTheDecodedCommand : Obligations.StepRunsTheDecodedCommand := by
  intro s i hidle hrst hvalid hdec
  rw [step_eq, cycle_idle hrst (s := edge s) hidle, if_pos hvalid, exec_of_decodeCommand hdec, wordId_cmdWord,
    wordArg_cmdWord]

/-- Settles O36: the reset state after the transfer at the transmit port. -/
theorem resetFromAnyState : Obligations.ResetFromAnyState := by
  intro s hrst
  refine ⟨_, cycle_rst hrst (edge s), rfl, rfl, rfl, rfl, rfl, rfl, rfl, rfl, handOver_inputs _ _, fun hquiet => ?_,
    fun b hsend hready hb => ?_⟩
  · rw [resetBlock_wire, handOver_eq_self (s := edge s) hquiet, edge_wire]
  · rw [resetBlock_wire, hready, handOver_eq_emit (s := edge s) hsend hb, emit_wire, edge_wire]

/-- Settles O37: the fields of the reset state, and the pins they drive. -/
theorem stateAfterReset : Obligations.StateAfterReset :=
  ⟨rfl, rfl, rfl, rfl, rfl, rfl, rfl, rfl, rfl, rfl, rfl, rfl, rfl⟩

/-- Settles O49: the reset state is idle. -/
theorem resetMeetsTheInvariants : Obligations.ResetMeetsTheInvariants := inv_of_idle rfl

/-- Settles O57. -/
theorem pinsOfEachPhase : Obligations.PinsOfEachPhase := by
  intro s hs
  refine ⟨fun hidle => ?_, fun hsend => ?_, fun hrecv => ?_, fun r hr => ?_⟩
  · simp [outPins, cmdReady, busy, txValid, rxReady, hidle]
  · have hresult : resValid s = false := hs.resValid_eq_false (by simp [hsend])
    have hbyte := hs.memRead_txData hsend
    simp [outPins, cmdReady, busy, txValid, rxReady, hsend, hresult, hbyte]
  · have hresult : resValid s = false := hs.resValid_eq_false (by simp [hrecv])
    simp [outPins, cmdReady, busy, txValid, rxReady, hrecv, hresult]
  · have hpins := resultPins_of_some hr
    refine ⟨by simp only [outPins, resValid, hr, Option.isSome_some], fun x hx hstatus => ?_, fun x hx hkind => ?_,
      by simp only [outPins, hpins], by simp only [outPins, hpins]⟩
    · simp only [outPins, hpins, hstatus, statusCode_table x hx]
    · simp only [outPins, hpins, hkind, kindCode_table x hx]

end Sys2Proof
end

section
/-! The statements of spec/20_memory.md: the bytes and the checksum of a built frame (R52; spec/40_frame_encoder.md
R101, R110). -/

namespace Sys2Proof.Machine

/-- The negated sum of a body whose sum is not 0 is the plain difference: the sum is far below 65536 (R102), so the
reduction of R13 does nothing. -/
theorem neg16_bodySum_toNat {version length command ackFlag argHi argLo : Byte}
    (h : 0 < bodySum version length command ackFlag argHi argLo) :
    (neg16 (bodySum version length command ackFlag argHi argLo)).toNat =
      0x10000 - bodySum version length command ackFlag argHi argLo := by
  have hle := bodySum_le version length command ackFlag argHi argLo
  rw [neg16_toNat]
  exact Nat.mod_eq_of_lt (by omega)

theorem ackByte_cfg (ack : Bool) : ackByte cfg ack = if ack then 0x01 else 0x00 := rfl

theorem ackByte_cfg_toNat (ack : Bool) : (ackByte cfg ack).toNat = if ack then 1 else 0 := by
  cases ack <;> rfl

/-- The body sum of a frame of this hardware, byte by byte (R101). -/
theorem bodySum_cfg (op : Byte) (ack : Bool) (arg : U16) :
    bodySum cfg.version cfg.len op (ackByte cfg ack) (hi arg) (lo arg) =
      0xFF + 0x06 + op.toNat + (if ack then 1 else 0) + arg.toNat / 256 + arg.toNat % 256 := by
  have hversion : cfg.version.toNat = 0xFF := rfl
  have hlen : cfg.len.toNat = 0x06 := rfl
  rw [bodySum, hversion, hlen, ackByte_cfg_toNat, hi_toNat, lo_toNat]

/-- The checksum of a frame of this hardware, in the integers: its version byte keeps the body sum above 0. -/
theorem buildChecksum_cfg_toNat (op : Byte) (ack : Bool) (arg : U16) :
    (buildChecksum cfg op ack arg).toNat =
      0x10000 - (0xFF + 0x06 + op.toNat + (if ack then 1 else 0) + arg.toNat / 256 + arg.toNat % 256) := by
  have hpos : 0 < bodySum cfg.version cfg.len op (ackByte cfg ack) (hi arg) (lo arg) := by
    rw [bodySum_cfg]
    omega
  rw [buildChecksum, neg16_bodySum_toNat hpos, bodySum_cfg]

end Sys2Proof.Machine

namespace Sys2Proof

open Machine

/-- Settles O6: the bytes are those of `BuildFn`, and the checksum is the one it computes. -/
theorem builtFrameBytes : Obligations.BuiltFrameBytes := by
  intro op ack arg
  refine ⟨buildChecksum cfg op ack arg, ?_, buildChecksum_cfg_toNat op ack arg⟩
  rw [buildFn_toList, ackByte_cfg]
  rfl

end Sys2Proof
end

section
/-! The statements of spec/30_encoding.md: the command word and the reply frame as codes of instructions (R71, R72, R76), and
the reserved identifiers (R84). -/

namespace Sys2Proof.Machine

/-! ### Reserved identifiers -/

/-- From `IDLE`, the latch and the failure mechanism leave the rejected state (R183, R230). -/
theorem raise_latch_of_idle (id : CmdId) (a : U16) {s : State} (hidle : s.phase = .idle) :
    raise .invalidArgument (latch id a s) = rejected id a s := by
  rw [rejected, hidle]
  rfl

/-- While idle, the acceptance of a reserved identifier is a rejection, in every configuration (R84). -/
theorem accept_of_reserved (c : Cfg) {id : CmdId} (a : U16) {s : State} (hidle : s.phase = .idle)
    (hid : 24 ≤ id.toNat) : accept c id a s = rejected id a s := by
  have hclass : classOfId id = .reserved := classOfId_eq_reserved.mpr hid
  rcases accept_spec c id a s with ⟨hbusy, -⟩ | ⟨-, hmode, -⟩ | ⟨-, -, h⟩ | ⟨-, t, hsend, -⟩
  · exact absurd hidle hbusy
  · simp [hclass] at hmode
  · rw [h, raise_latch_of_idle id a hidle]
  · simp [hclass] at hsend

end Sys2Proof.Machine

namespace Sys2Proof

open Machine

/-! ### Command words -/

/-- A word that decodes is the word of its command: the instruction keeps the identifier as its constructor and the
operand as its field (R72). -/
theorem encodeIn_of_decodeCommand (c : Cfg) {w : CmdWord} {i : Instr} (h : decodeCommand w = .ok i) :
    encodeIn c i = .commandWord w := by
  rw [← cmdWord_wordId_wordArg w]
  unfold decodeCommand at h
  cases hc : classOfId (wordId w) with
  | reserved => simp [hc] at h
  | replyMode =>
    rw [hc] at h
    obtain rfl := Except.ok.inj h
    rw [classOfId_eq_replyMode hc]
    rfl
  | transmit t =>
    rw [hc] at h
    rw [classOfId_eq_transmit hc]
    cases t <;> obtain rfl := Except.ok.inj h <;> rfl

/-- A word decodes exactly when its identifier is not reserved (R72, R84). -/
theorem decodeCommand_isOk_iff {w : CmdWord} : (∃ i, decodeCommand w = .ok i) ↔ (wordId w).toNat < 24 := by
  rw [← Nat.not_le, ← classOfId_eq_reserved]
  unfold decodeCommand
  cases classOfId (wordId w) with
  | reserved => simp
  | replyMode => simp
  | transmit t => cases t <;> simp

/-! ### Reply frames -/

/-- The decoder finds in a reply frame the command byte and the fields it was made of (R71). -/
theorem decodeIn_encodeReply (c : Cfg) (m : Byte) (r : ReplyFields) :
    decodeIn c (encodeReply c m r) = decodeReplyByte c m r := by
  rw [encodeReply, decodeIn_replyBytes, decodeReply_frame]
  simp [replyFrame]

/-- A frame with the right markers is the reply frame of its own command byte and fields (R71). -/
theorem replyFrame_fields {c : Cfg} {f : Frame} (hstart : f[0] = c.start) (hend : f[9] = c.endMark) :
    replyFrame c f[3] ⟨f[1], f[2], f[4], cat f[5] f[6], cat f[7] f[8]⟩ = f := by
  simp only [replyFrame, hi_cat, lo_cat, ← hstart, ← hend]
  refine Vector.ext fun j hj => ?_
  interval_cases j <;> rfl

/-- The row that a command byte selects is encoded with that byte (R156). -/
theorem encodeIn_of_decodeReplyByte {c : Cfg} {m : Byte} {r : ReplyFields} {i : Instr}
    (h : decodeReplyByte c m r = .ok i) : encodeIn c i = encodeReply c m r := by
  obtain ⟨rfl, rfl⟩ | ⟨rfl, rfl⟩ | ⟨rfl, rfl⟩ | ⟨rfl, rfl⟩ | ⟨rfl, rfl⟩ | ⟨rfl, rfl⟩ | ⟨rfl, rfl⟩ | ⟨rfl, rfl⟩ |
    ⟨rfl, rfl⟩ | ⟨rfl, rfl⟩ | ⟨rfl, rfl⟩ := decodeReplyByte_spec h <;> rfl

/-- A command byte selects a row exactly when it is a byte of the reply map (R10, R156). -/
theorem decodeReplyByte_isOk_iff {c : Cfg} {m : Byte} {r : ReplyFields} :
    (∃ i, decodeReplyByte c m r = .ok i) ↔ m ∈ c.replyBytes := by
  simp only [Cfg.replyBytes, List.mem_cons, List.not_mem_nil, or_false]
  unfold decodeReplyByte
  iterate 11
    split
    · simp [*]
  simp [*]

/-- Received bytes that decode are the bytes of the reply row they decode to (R71, R76). -/
theorem encodeIn_of_decodeReply {c : Cfg} {bs : List Byte} {i : Instr} (h : decodeReply c bs = .ok i) :
    encodeIn c i = .replyBytes bs := by
  obtain ⟨f, rfl, hstart, hend, hbyte⟩ := decodeReply_spec h
  rw [encodeIn_of_decodeReplyByte hbyte, encodeReply, replyFrame_fields hstart hend]

/-- Received bytes decode exactly when they are a frame with the right markers and a byte of the reply map. -/
theorem decodeReply_isOk_iff {c : Cfg} {bs : List Byte} :
    (∃ i, decodeReply c bs = .ok i) ↔
      ∃ f : Frame, bs = f.toList ∧ f[0] = c.start ∧ f[9] = c.endMark ∧ f[3] ∈ c.replyBytes := by
  constructor
  · rintro ⟨i, h⟩
    obtain ⟨f, hbs, hstart, hend, hbyte⟩ := decodeReply_spec h
    exact ⟨f, hbs, hstart, hend, decodeReplyByte_isOk_iff.mp ⟨i, hbyte⟩⟩
  · rintro ⟨f, rfl, hstart, hend, hmem⟩
    rw [decodeReply_frame, if_neg (not_not.mpr hstart), if_neg (not_not.mpr hend)]
    exact decodeReplyByte_isOk_iff.mpr hmem

/-! ### Codes -/

/-- In every configuration, a code that decodes is the code of the instruction it decodes to. -/
theorem encodeIn_of_decodeIn {c : Cfg} {x : Code} {i : Instr} (h : decodeIn c x = .ok i) : encodeIn c i = x := by
  cases x with
  | commandWord w => exact encodeIn_of_decodeCommand c h
  | replyBytes bs => exact encodeIn_of_decodeReply h

/-- Settles O15: a command word decodes to its command, a reply frame to the row of its command byte. -/
theorem decodeOfEncode : Obligations.DecodeOfEncode := by
  intro i
  obtain ⟨id, a, hcode, hdec⟩ | ⟨m, r, hcode, hdec⟩ := encode_cases i
  · rw [hcode, decode_commandWord, hdec]
  · rw [hcode, decode, decodeIn_encodeReply, hdec]

/-- Settles O16, for words and for received bytes. -/
theorem encodeOfDecode : Obligations.EncodeOfDecode := fun _ _ => encodeIn_of_decodeIn

/-- On this hardware the decoder is the inverse of the encoder. -/
theorem decode_eq_ok_iff {x : Code} {i : Instr} : decode x = .ok i ↔ encode i = x :=
  ⟨encodeOfDecode x i, fun h => h ▸ decodeOfEncode i⟩

/-- Settles O17: a word by its identifier, received bytes by their markers and their command byte. -/
theorem whatDecodes : Obligations.WhatDecodes :=
  ⟨fun _ => decodeCommand_isOk_iff, fun _ => decodeReply_isOk_iff⟩

/-- Settles O18: each word is the code of its instruction. -/
theorem writtenOutWordsDecode : Obligations.WrittenOutWordsDecode := by
  simp only [Obligations.WrittenOutWordsDecode, decode_eq_ok_iff]
  decide

/-- Settles O33: the step is the acceptance step, which rejects the identifier. -/
theorem reservedIdentifierIsInvalidArgument : Obligations.ReservedIdentifierIsInvalidArgument := by
  intro s hidle hrst hvalid hid
  rw [step_eq, cycle_idle hrst (s := edge s) hidle, if_pos hvalid, accept_of_reserved cfg _ (s := edge s) hidle hid]

end Sys2Proof
end

section
/-! The statements of spec/40_frame_encoder.md: the checksum (R102 to R104), the writes of the build (R100, R106) and the
built frame looped back (R107). -/

namespace Sys2Proof.Machine

/-! ### The sum and its negation -/

/-- A word is 0 exactly when its number is. -/
theorem toNat_eq_zero_iff {w : Nat} {v : BitVec w} : v.toNat = 0 ↔ v = 0 := by
  rw [← BitVec.toNat_inj, BitVec.ofNat_eq_ofNat, BitVec.toNat_zero]

/-- R102 for a frame's body. -/
theorem sum6_le (b : Frame) : sum6 b ≤ 1530 := bodySum_le b[1] b[2] b[3] b[4] b[5] b[6]

theorem sum6_eq_zero_iff {b : Frame} :
    sum6 b = 0 ↔ b[1] = 0 ∧ b[2] = 0 ∧ b[3] = 0 ∧ b[4] = 0 ∧ b[5] = 0 ∧ b[6] = 0 := by
  simp only [sum6, bodySum, Nat.add_eq_zero_iff, toNat_eq_zero_iff, and_assoc]

/-- R104 (d): the sum is order-blind, being the sum of a list. -/
theorem sum6_eq_sum (b : Frame) : sum6 b = ([b[1], b[2], b[3], b[4], b[5], b[6]].map BitVec.toNat).sum := by
  simp only [sum6, bodySum, List.map_cons, List.map_nil, List.sum_cons, List.sum_nil]
  omega

theorem sum6_eq_of_perm {f g : Frame}
    (h : [f[1], f[2], f[3], f[4], f[5], f[6]].Perm [g[1], g[2], g[3], g[4], g[5], g[6]]) : sum6 f = sum6 g := by
  rw [sum6_eq_sum, sum6_eq_sum, (h.map BitVec.toNat).sum_eq]

/-- R103: within 16 bits, the number that completes a sum to 0 is its negation. -/
theorem add_mod_eq_zero_iff_eq_neg16 {s : Nat} (hs : s < 65536) (v : U16) : (s + v.toNat) % 65536 = 0 ↔ v = neg16 s := by
  have hv : v.toNat < 65536 := v.isLt
  rw [← BitVec.toNat_inj, neg16_toNat]
  omega

theorem neg16_eq_zero_iff {s : Nat} (hs : s < 65536) : neg16 s = 0 ↔ s = 0 := by
  rw [← toNat_eq_zero_iff, neg16_toNat]
  omega

/-- R104 (a): the negation of a sum in the range of R102 is 0 or at least 0xFA06. -/
theorem hi_neg16_range {s : Nat} (hs : s ≤ 1530) : hi (neg16 s) = 0 ∨ 0xFA ≤ (hi (neg16 s)).toNat := by
  rw [← toNat_eq_zero_iff, hi_toNat, neg16_toNat]
  omega

/-- R104 (b): the constants of this hardware keep the sum of a built frame from 0x0105 to 0x0403. -/
theorem buildChecksum_cfg_range (op : Byte) (ack : Bool) (arg : U16) :
    0xFBFD ≤ (buildChecksum cfg op ack arg).toNat ∧ (buildChecksum cfg op ack arg).toNat ≤ 0xFEFB := by
  have hop : op.toNat < 256 := op.isLt
  have harg : arg.toNat < 65536 := arg.isLt
  have hack : (if ack then 1 else 0) ≤ 1 := by cases ack <;> decide
  rw [buildChecksum_cfg_toNat]
  omega

/-! ### The checksum in a frame -/

/-- A built frame carries the checksum of its own body, in every configuration (R101). -/
theorem cat_checksum_buildFn (c : Cfg) (op : Byte) (ack : Bool) (arg : U16) :
    cat (buildFn c op ack arg)[7] (buildFn c op ack arg)[8] = neg16 (sum6 (buildFn c op ack arg)) := by
  rw [buildFn_checksumHi, buildFn_checksumLo, cat_hi_lo, buildChecksum_eq]

/-- What decodes: both markers and the checksum are right; the three results are read from the frame's bytes 3, 5 and 6
(R154, R156, R157). -/
theorem parse_frame_eq_decoded_iff {c : Cfg} {f : Frame} {k : Kind} {m : Byte} {v : U16} :
    parse c f.toList = .decoded k m v ↔
      (f[0] = c.start ∧ f[9] = c.endMark ∧ cat f[7] f[8] = neg16 (sum6 f)) ∧
        classify c f[3] = k ∧ f[3] = m ∧ cat f[5] f[6] = v := by
  rw [parse_frame]
  by_cases hstart : f[0] = c.start
  · by_cases hend : f[9] = c.endMark
    · by_cases hsum : cat f[7] f[8] = neg16 (sum6 f)
      · simp [hstart, hend, hsum]
      · simp [hstart, hend, hsum]
    · simp [hstart, hend]
  · simp [hstart]

/-! ### The writes of the build -/

/-- Inside the buffer a two-byte write stores the high byte, then the low byte (R15). -/
theorem memWrite2_of_lt (b : Frame) (i : Nat) (v : U16) (h : i + 1 < frameLen) :
    memWrite2 b i v = some ((b.set i (hi v)).set (i + 1) (lo v)) := by
  rw [memWrite2, memWrite_of_lt b i _ (Nat.lt_of_succ_lt h), Option.bind_some, memWrite_of_lt _ _ _ h]

/-- Nothing of a buffer is left once each of its ten bytes has been written. -/
theorem set_all_bytes (b : Frame) (x0 x1 x2 x3 x4 x5 x6 x7 x8 x9 : Byte) :
    (((((((((b.set 0 x0).set 1 x1).set 2 x2).set 3 x3).set 4 x4).set 5 x5).set 6 x6).set 7 x7).set 8 x8).set 9 x9 =
      #v[x0, x1, x2, x3, x4, x5, x6, x7, x8, x9] := by
  ext i hi
  interval_cases i <;> simp

/-- The six body bytes decide the sum, whatever the rest of the buffer holds (R101). -/
theorem sum6_set_body (b : Frame) (x1 x2 x3 x4 x5 x6 : Byte) :
    sum6 ((((((b.set 1 x1).set 2 x2).set 3 x3).set 4 x4).set 5 x5).set 6 x6) = bodySum x1 x2 x3 x4 x5 x6 := by
  simp [sum6]

/-- R100, R106: the nine writes leave the frame of `BuildFn`, whatever the buffer held. -/
theorem buildByWrites_eq (c : Cfg) (op : Byte) (ack : Bool) (arg : U16) (b : Frame) :
    buildByWrites c op ack arg b = some (buildFn c op ack arg) := by
  simp only [buildByWrites, memWrite_of_lt, memWrite2_of_lt, Option.bind_eq_bind, Option.bind_some, frameLen, Nat.reduceLT,
    Nat.reduceAdd, sum6_set_body, set_all_bytes, buildFn, buildChecksum]

end Sys2Proof.Machine

namespace Sys2Proof

open Machine

/-- Settles O2: the sum fits 16 bits (R102), so completing it to 0 is being its negation. -/
theorem checksumValidIffSumIsZero : Obligations.ChecksumValidIffSumIsZero := by
  have hvalid (b : Frame) : (sum6 b + (cat b[7] b[8]).toNat) % 65536 = 0 ↔ cat b[7] b[8] = neg16 (sum6 b) :=
    add_mod_eq_zero_iff_eq_neg16 (Nat.lt_of_le_of_lt (sum6_le b) (by decide)) _
  exact ⟨hvalid, fun c op ack arg => (hvalid _).mpr (cat_checksum_buildFn c op ack arg)⟩

/-- Settles O3: the range of the sum gives that of the checksum; the two built frames of R104 (b) reach its bounds. -/
theorem checksumRange : Obligations.ChecksumRange := by
  refine ⟨fun b => ?_, buildChecksum_cfg_range, by decide, by decide⟩
  have hle := sum6_le b
  have hlt : sum6 b < 65536 := Nat.lt_of_le_of_lt hle (by decide)
  exact ⟨hle, (neg16_eq_zero_iff hlt).trans sum6_eq_zero_iff, hi_neg16_range hle⟩

/-- Settles O4: the permuted body has the same sum, so every check of `Parse` passes again. -/
theorem permutedBodyIsStillAccepted : Obligations.PermutedBodyIsStillAccepted := by
  intro c f g k m v hparse hperm h0 h7 h8 h9
  obtain ⟨⟨hstart, hend, hsum⟩, -⟩ := parse_frame_eq_decoded_iff.mp hparse
  have hsum' : cat g[7] g[8] = neg16 (sum6 g) := by rw [h7, h8, hsum, sum6_eq_of_perm hperm]
  exact parse_frame_eq_decoded_iff.mpr ⟨⟨h0.trans hstart, h9.trans hend, hsum'⟩, rfl, rfl, rfl⟩

/-- Settles O7: a built frame has the two markers and its own checksum, and its argument bytes join to the argument. -/
theorem parseOfBuildIsDecoded : Obligations.ParseOfBuildIsDecoded := by
  intro c op ack arg
  exact parse_frame_eq_decoded_iff.mpr ⟨⟨rfl, rfl, cat_checksum_buildFn c op ack arg⟩, rfl, rfl, cat_hi_lo arg⟩

/-- Settles O5: by the nine writes; `Build` is the store of their frame. -/
theorem buildWritesAllTenBytes : Obligations.BuildWritesAllTenBytes := ⟨buildByWrites_eq, fun _ _ _ _ _ => rfl⟩

end Sys2Proof
end

section
/-! The statements of spec/41_transceiver_control.md: the transmit step (R122 to R125, R132), the receive step, the link
fault and the tick with their order in one cycle (R126 to R134), the phase graph (R136), and whole commands (R120,
R264). -/

namespace Sys2Proof.Machine

/-! ### The end of a send and of a receive -/

/-- The end of a send on this hardware, in the numbers of R182. -/
theorem endOfSend_cfg (s : State) : endOfSend cfg s = sendDone s := by
  rcases endOfSend_spec cfg s with ⟨hwait, h⟩ | ⟨hwait, h⟩ <;> rw [h]
  · rw [sendDone, if_pos ((expectsReply_iff _ _).mp hwait)]
    rfl
  · rw [sendDone, if_neg fun hawaits => by simp [(expectsReply_iff _ _).mpr hawaits] at hwait]
    rfl

theorem endOfSend_of_expectsReply (c : Cfg) {s : State} (h : expectsReply s.cmdId s.isReply = true) :
    endOfSend c s = beginReceive c s := if_pos h

theorem endOfSend_of_not_expectsReply (c : Cfg) {s : State} (h : expectsReply s.cmdId s.isReply = false) :
    endOfSend c s = completeVoid s := if_neg (by simp [h])

theorem endOfSend_phase_ne_send (c : Cfg) (s : State) : (endOfSend c s).phase ≠ .send := by
  rcases endOfSend_spec c s with ⟨-, h⟩ | ⟨-, h⟩ <;> rw [h] <;> nofun

theorem completeReply_of_error {c : Cfg} {s : State} {e : ProtoError} (h : parse c s.rxbuf.toList = .error e) :
    completeReply c s = ended (protoStatus e) .none 0 0 s := by
  simp only [completeReply, h]
  rfl

theorem completeReply_of_decoded {c : Cfg} {s : State} {k : Kind} {m : Byte} {v : U16}
    (h : parse c s.rxbuf.toList = .decoded k m v) : completeReply c s = ended .okReply k m v s := by
  simp only [completeReply, h]
  rfl

/-- `complete_reply` on this hardware, error by error (R130). -/
theorem completeReply_cfg (s : State) : completeReply cfg s = replyDone s := by
  unfold replyDone
  cases h : parse cfg s.rxbuf.toList with
  | decoded k m v => exact completeReply_of_decoded h
  | error e => cases e <;> exact completeReply_of_error h

theorem completeReply_res_isSome (c : Cfg) (s : State) : (completeReply c s).res.isSome = true := by
  rcases completeReply_spec c s with ⟨m, v, h⟩ | h | h | h <;> rw [h] <;> rfl

/-! ### Reply rows -/

theorem completeAs_of_checksumValid {m : Byte} {k : Kind} {r : ReplyFields} {s : State} (hrecv : s.phase = .recv)
    (hlast : s.rxidx = 9) (hsum : r.checksumValid m = true) :
    completeAs m k r s = ended .okReply k m r.value s := by
  rcases completeAs_spec m k r s with ⟨hmoment, -⟩ | ⟨-, -, h⟩ | ⟨-, hsum', -⟩
  · exact absurd ⟨hrecv, hlast⟩ hmoment
  · exact h
  · simp [hsum] at hsum'

theorem completeAs_of_not_checksumValid {m : Byte} {k : Kind} {r : ReplyFields} {s : State} (hrecv : s.phase = .recv)
    (hlast : s.rxidx = 9) (hsum : r.checksumValid m = false) :
    completeAs m k r s = ended .protoChecksum .none 0 0 s := by
  rcases completeAs_spec m k r s with ⟨hmoment, -⟩ | ⟨-, hsum', -⟩ | ⟨-, -, h⟩
  · exact absurd ⟨hrecv, hlast⟩ hmoment
  · simp [hsum] at hsum'
  · exact h

/-- Every operand of a command is well formed (R72). -/
theorem wellFormedIn_of_decodeCommand (c : Cfg) {w : CmdWord} {i : Instr} (h : decodeCommand w = .ok i) :
    i.wellFormedIn c = true := by
  unfold decodeCommand at h
  cases hc : classOfId (wordId w) with
  | reserved => simp [hc] at h
  | replyMode =>
    rw [hc] at h
    obtain rfl := Except.ok.inj h
    rfl
  | transmit t =>
    rw [hc] at h
    cases t <;> obtain rfl := Except.ok.inj h <;> rfl

/-- A reply row is well formed exactly when its checksum is valid with its own command byte (R103, R156). -/
theorem wellFormedIn_of_decodeReplyByte {c : Cfg} {m : Byte} {r : ReplyFields} {i : Instr}
    (h : decodeReplyByte c m r = .ok i) : i.wellFormedIn c = r.checksumValid m := by
  obtain ⟨rfl, rfl⟩ | ⟨rfl, rfl⟩ | ⟨rfl, rfl⟩ | ⟨rfl, rfl⟩ | ⟨rfl, rfl⟩ | ⟨rfl, rfl⟩ | ⟨rfl, rfl⟩ | ⟨rfl, rfl⟩ |
    ⟨rfl, rfl⟩ | ⟨rfl, rfl⟩ | ⟨rfl, rfl⟩ := decodeReplyByte_spec h <;> rfl

/-- As the tenth byte is taken, the reply row that `RXBUF` decodes to is `complete_reply` (R130). -/
theorem exec_of_decode_rxbuf {s : State} {i : Instr} (hrecv : s.phase = .recv) (hlast : s.rxidx = 9)
    (h : decode (.replyBytes s.rxbuf.toList) = .ok i) : exec i s = .next (completeReply cfg s) := by
  have hdec : decodeIn cfg (.replyBytes s.rxbuf.toList) = .ok i := h
  simpa only [takeReply, hdec] using takeReply_eq hrecv hlast

/-! ### The transfer steps in their own phase -/

/-- From `IDLE`, a transmitting command with a legal operand is built and put on offer (R180, R121). -/
theorem accept_of_argLegal {t : TxCmd} {a : U16} {s : State} (hidle : s.phase = .idle)
    (hlegal : argLegal cfg t a = true) :
    accept cfg (idOfCmd t) a s = sending (idOfCmd t) a (cfg.opc t) (frameArg t a) s := by
  simp only [accept, hidle, classOfId_idOfCmd, hlegal, if_true]
  rfl

/-- From `IDLE` the acceptance leads to `SEND` exactly with a transmitting command whose operand is legal (R136). -/
theorem accept_phase (c : Cfg) (id : CmdId) (a : U16) {s : State} (hidle : s.phase = .idle) :
    ((accept c id a s).phase = .idle ∧ ∀ t, id = idOfCmd t → argLegal c t a = false) ∨
      ((accept c id a s).phase = .send ∧ ∃ t, id = idOfCmd t ∧ argLegal c t a = true) := by
  rcases accept_spec c id a s with ⟨hbusy, -⟩ | ⟨-, hclass, h⟩ | ⟨-, hclass, h⟩ | ⟨-, t, hclass, hlegal, h⟩
  · exact absurd hidle hbusy
  · refine .inl ⟨by rw [h, setReplyMode_phase, latch_phase, hidle], ?_⟩
    rintro t rfl
    simp at hclass
  · refine .inl ⟨by rw [h, raise_phase], ?_⟩
    rintro t rfl
    simpa using hclass
  · exact .inr ⟨by rw [h, beginSend_phase], t, classOfId_eq_transmit hclass, hlegal⟩

theorem idOfCmd_toNat_le (t : TxCmd) : (idOfCmd t).toNat ≤ 22 := by
  cases t <;> decide

/-- The byte on offer goes on the wire; bytes 0 to 8 advance `TXIDX`, byte 9 ends the send (R122). -/
theorem txAccept_of_memRead {c : Cfg} {s : State} {b : Byte} (hsend : s.phase = .send)
    (hb : memRead s.txbuf s.txidx.toNat = some b) :
    txAccept c s = .next
      (if s.txidx.toNat < 9 then { emit b s with txidx := s.txidx + 1 } else endOfSend c (emit b s)) := by
  simp only [txAccept, hsend, hb]
  split <;> rfl

/-- The byte is stored at `RXIDX`; bytes 0 to 8 advance it, byte 9 completes the command (R126, R127). -/
theorem rxByte_of_memWrite {c : Cfg} {b : Byte} {s : State} {buf : Frame} (hrecv : s.phase = .recv)
    (hw : memWrite s.rxbuf s.rxidx.toNat b = some buf) :
    rxByte c b s = .next
      (if s.rxidx.toNat < 9 then { s with rxbuf := buf, rxidx := s.rxidx + 1 }
      else completeReply c { s with rxbuf := buf }) := by
  simp only [rxByte, hrecv, storeReceived, hw, Option.map_some]
  split <;> rfl

theorem rxFault_of_recv {s : State} (hrecv : s.phase = .recv) : rxFault s = ended .linkError .none 0 0 s := by
  simp only [rxFault, hrecv]
  rfl

theorem tick_of_lt {s : State} (hrecv : s.phase = .recv) (hcnt : 1 < s.toCnt) :
    tick s = { s with toCnt := s.toCnt - 1 } := by
  simp only [tick, hrecv, if_pos hcnt]

theorem tick_of_le {s : State} (hrecv : s.phase = .recv) (hcnt : s.toCnt ≤ 1) :
    tick s = ended .timeoutError .none 0 0 s := by
  simp only [tick, hrecv, if_neg (Nat.not_lt_of_le hcnt)]
  rfl

/-- An index is the last of a buffer as a register and as a number alike. -/
theorem index_toNat_eq_nine_iff {i : BitVec 4} : i.toNat = 9 ↔ i = 9 := by
  rw [← BitVec.toNat_inj]
  rfl

theorem index_ne_nine {i : BitVec 4} (h : i.toNat < 9) : i ≠ 9 :=
  fun hi => absurd (index_toNat_eq_nine_iff.mpr hi) (Nat.ne_of_lt h)

/-- Where a byte is on offer, an index that is not below 9 is 9. -/
theorem index_eq_nine_of_memRead {f : Frame} {i : BitVec 4} {b : Byte} (h : memRead f i.toNat = some b)
    (hnlt : ¬ i.toNat < 9) : i = 9 := by
  have hlt : i.toNat < 10 := by
    by_contra hge
    simp [(memRead_eq_none f i.toNat).mpr (Nat.le_of_not_lt hge)] at h
  exact index_toNat_eq_nine_iff.mp (Nat.eq_of_lt_succ_of_not_lt hlt hnlt)

/-! ### The step by the phase at its start -/

section
variable {s : State}

theorem step_of_idle (hidle : s.phase = .idle) (hrst : (pins s).rst = false) :
    step s = .next (if (pins s).cmdValid then accept cfg (pins s).cmdId (pins s).cmdArg (edge s) else edge s) :=
  cycle_idle hrst (s := edge s) hidle

theorem step_of_send (hsend : s.phase = .send) (hrst : (pins s).rst = false) :
    step s = if (pins s).txReady then txAccept cfg (edge s) else .next (edge s) :=
  cycle_send hrst (s := edge s) hsend

theorem step_of_recv (hrecv : s.phase = .recv) (hrst : (pins s).rst = false) :
    step s = if (pins s).rxFault then .next (rxFault (edge s))
      else thenTick (pins s).tick (if (pins s).rxValid then rxByte cfg (pins s).rxData (edge s) else .next (edge s)) :=
  cycle_recv_eq hrst (s := edge s) hrecv

/-- A channel that does not accept leaves only the clock edge (R132). -/
theorem step_of_not_ready (hsend : s.phase = .send) (hrst : (pins s).rst = false)
    (hready : (pins s).txReady = false) : step s = .next (edge s) := by
  rw [step_of_send hsend hrst, hready]
  rfl

/-- The channel accepts byte `TXIDX` (R122). -/
theorem step_of_ready {b : Byte} (hsend : s.phase = .send) (hrst : (pins s).rst = false)
    (hready : (pins s).txReady = true) (hb : memRead s.txbuf s.txidx.toNat = some b) :
    step s = .next
      (if s.txidx.toNat < 9 then { edge s with wire := s.wire ++ [b], txidx := s.txidx + 1 }
      else endOfSend cfg { edge s with wire := s.wire ++ [b] }) := by
  rw [step_of_send hsend hrst, if_pos hready, txAccept_of_memRead (s := edge s) hsend hb]
  rfl

/-- A link fault ends the receive, whatever else the cycle brings (R128, R134). -/
theorem step_of_fault (hrecv : s.phase = .recv) (hrst : (pins s).rst = false) (hfault : (pins s).rxFault = true) :
    step s = .next (ended .linkError .none 0 0 (edge s)) := by
  rw [step_of_recv hrecv hrst, if_pos hfault, rxFault_of_recv (s := edge s) hrecv]

/-- A byte is taken, then the tick of the cycle is applied (R126, R134). -/
theorem step_of_byte {buf : Frame} (hrecv : s.phase = .recv) (hrst : (pins s).rst = false)
    (hfault : (pins s).rxFault = false) (hvalid : (pins s).rxValid = true)
    (hw : memWrite s.rxbuf s.rxidx.toNat (pins s).rxData = some buf) :
    step s = thenTick (pins s).tick (.next
      (if s.rxidx.toNat < 9 then { edge s with rxbuf := buf, rxidx := s.rxidx + 1 }
      else completeReply cfg { edge s with rxbuf := buf })) := by
  rw [step_of_recv hrecv hrst, hfault, hvalid]
  exact congrArg (thenTick (pins s).tick) (rxByte_of_memWrite (s := edge s) hrecv hw)

/-- The tenth byte completes the command, and a tick of its cycle finds the phase over (R127, R134). -/
theorem step_of_tenth_byte {buf : Frame} (hrecv : s.phase = .recv) (hlast : s.rxidx = 9)
    (hrst : (pins s).rst = false) (hfault : (pins s).rxFault = false) (hvalid : (pins s).rxValid = true)
    (hw : memWrite s.rxbuf 9 (pins s).rxData = some buf) :
    step s = .next (completeReply cfg { edge s with rxbuf := buf }) := by
  have hnine : s.rxidx.toNat = 9 := index_toNat_eq_nine_iff.mpr hlast
  rw [← hnine] at hw
  rw [step_of_byte hrecv hrst hfault hvalid hw, if_neg (Nat.not_lt_of_le hnine.ge)]
  refine thenTick_off ?_
  rw [completeReply_phase]
  nofun

/-- A cycle of `RECV` with a tick alone (R129). -/
theorem step_of_tick (hrecv : s.phase = .recv) (hrst : (pins s).rst = false) (hfault : (pins s).rxFault = false)
    (hvalid : (pins s).rxValid = false) (htick : (pins s).tick = true) : step s = .next (tick (edge s)) := by
  rw [step_of_recv hrecv hrst, hfault, hvalid, htick]
  rfl

end

/-- Outside `RECV` the fault pin and the tick pin do nothing (R128, R129, R133; log 13). -/
theorem cycle_of_not_recv (p : InPins) (fault tick : Bool) {s : State} (h : s.phase ≠ .recv) :
    cycle { p with rxFault := fault, tick := tick } s = cycle p s := by
  unfold cycle cycleIn
  cases hp : s.phase with
  | recv => exact absurd hp h
  | idle | send => rfl

/-! ### Where a step of `RECV` can lead -/

/-- A byte that is not the tenth leaves the block in `RECV` with its ticks, the tenth ends the command (R126, R127). -/
theorem rxByte_phase {c : Cfg} {b : Byte} {s t : State} (hrecv : s.phase = .recv) (h : rxByte c b s = .next t) :
    (t.phase = .recv ∧ t.toCnt = s.toCnt ∧ s.rxidx ≠ 9) ∨
      (t.phase = .idle ∧ t.res.isSome = true ∧ s.rxidx = 9) := by
  rcases rxByte_spec h with ⟨hoff, -⟩ | ⟨-, u, hu, hcase⟩
  · exact absurd hrecv hoff
  · obtain ⟨buf, hw, rfl⟩ := storeReceived_spec hu
    obtain ⟨hlt, -⟩ := memWrite_spec hw
    rcases hcase with ⟨hlt9, rfl⟩ | ⟨hnlt, rfl⟩
    · exact .inl ⟨hrecv, rfl, index_ne_nine hlt9⟩
    · have hnine : s.rxidx.toNat = 9 := Nat.eq_of_lt_succ_of_not_lt hlt hnlt
      exact .inr ⟨completeReply_phase _ _, completeReply_res_isSome _ _, index_toNat_eq_nine_iff.mp hnine⟩

/-- The last tick ends a receive, an earlier one does not (R129). -/
theorem tick_phase {s : State} (hrecv : s.phase = .recv) :
    ((tick s).phase = .recv ∧ 1 < s.toCnt) ∨
      ((tick s).phase = .idle ∧ (tick s).res.isSome = true ∧ s.toCnt ≤ 1) := by
  by_cases hcnt : 1 < s.toCnt
  · exact .inl ⟨by rw [tick_of_lt hrecv hcnt, hrecv], hcnt⟩
  · rw [tick_of_le hrecv (Nat.le_of_not_lt hcnt)]
    exact .inr ⟨rfl, rfl, Nat.le_of_not_lt hcnt⟩

/-- A tick is applied to the state that the cycle has reached (R134). -/
theorem thenTick_spec {on : Bool} {o : StepOutcome} {t : State} (h : thenTick on o = .next t) :
    ∃ u, o = .next u ∧ t = if on then tick u else u := by
  cases o with
  | next u => exact ⟨u, rfl, (Host.Outcome.next.inj h).symm⟩
  | fault => cases h
  | refused => cases h

/-! ### The phase graph, phase by phase (R136) -/

theorem step_phase_of_idle {s t : State} (h : step s = .next t) (hrst : (pins s).rst = false)
    (hidle : s.phase = .idle) :
    (t.phase = .idle ∧
      ((pins s).cmdValid = true → ∀ cmd, (pins s).cmdId = idOfCmd cmd → argLegal cfg cmd (pins s).cmdArg = false)) ∨
    (t.phase = .send ∧ (pins s).cmdValid = true ∧ (pins s).cmdId.toNat ≤ 22 ∧
      ∃ cmd, (pins s).cmdId = idOfCmd cmd ∧ argLegal cfg cmd (pins s).cmdArg = true) := by
  rw [step_of_idle hidle hrst] at h
  obtain rfl := Host.Outcome.next.inj h
  cases hvalid : (pins s).cmdValid with
  | false => exact .inl ⟨hidle, nofun⟩
  | true =>
    rcases accept_phase cfg (pins s).cmdId (pins s).cmdArg (s := edge s) hidle with
      ⟨hp, hnone⟩ | ⟨hp, cmd, hid, hlegal⟩
    · exact .inl ⟨hp, fun _ => hnone⟩
    · exact .inr ⟨hp, rfl, hid ▸ idOfCmd_toNat_le cmd, cmd, hid, hlegal⟩

theorem step_phase_of_send {s t : State} (h : step s = .next t) (hrst : (pins s).rst = false)
    (hsend : s.phase = .send) :
    (t.phase = .send ∧ ((pins s).txReady = true → s.txidx ≠ 9)) ∨
    (t.phase = .recv ∧ (pins s).txReady = true ∧ s.txidx = 9 ∧ AwaitsReply s.cmdId s.isReply) ∨
    (t.phase = .idle ∧ (pins s).txReady = true ∧ s.txidx = 9 ∧ ¬AwaitsReply s.cmdId s.isReply ∧
      t.res = some ⟨.okVoid, .none, 0, 0⟩) := by
  rw [step_of_send hsend hrst] at h
  cases hready : (pins s).txReady with
  | false =>
    rw [hready] at h
    obtain rfl := Host.Outcome.next.inj h
    exact .inl ⟨hsend, nofun⟩
  | true =>
    rw [hready] at h
    rcases txAccept_spec h with ⟨hoff, -⟩ | ⟨-, b, hb, ⟨hlt, rfl⟩ | ⟨hnlt, rfl⟩⟩
    · exact absurd hsend hoff
    · exact .inl ⟨hsend, fun _ => index_ne_nine hlt⟩
    · have hlast : s.txidx = 9 := index_eq_nine_of_memRead hb hnlt
      rcases endOfSend_spec cfg (emit b (edge s)) with ⟨hwait, h⟩ | ⟨hwait, h⟩ <;> rw [h]
      · exact .inr (.inl ⟨rfl, rfl, hlast, (expectsReply_iff _ _).mp hwait⟩)
      · have hnone : ¬AwaitsReply s.cmdId s.isReply := fun hawaits =>
          Bool.false_ne_true (hwait.symm.trans ((expectsReply_iff _ _).mpr hawaits))
        exact .inr (.inr ⟨rfl, rfl, hlast, hnone, rfl⟩)

theorem step_phase_of_recv {s t : State} (h : step s = .next t) (hrst : (pins s).rst = false)
    (hrecv : s.phase = .recv) :
    (t.phase = .recv ∧ (pins s).rxFault = false ∧ ((pins s).rxValid = true → s.rxidx ≠ 9) ∧
      ((pins s).tick = true → 1 < s.toCnt)) ∨
    (t.phase = .idle ∧ t.res.isSome = true ∧
      ((pins s).rxFault = true ∨
        (pins s).rxFault = false ∧ (pins s).rxValid = true ∧ s.rxidx = 9 ∨
        (pins s).rxFault = false ∧ (pins s).tick = true ∧ s.toCnt ≤ 1)) := by
  cases hfault : (pins s).rxFault with
  | true =>
    rw [step_of_fault hrecv hrst hfault] at h
    obtain rfl := Host.Outcome.next.inj h
    exact .inr ⟨rfl, rfl, .inl rfl⟩
  | false =>
    rw [step_of_recv hrecv hrst, hfault] at h
    obtain ⟨u, hu, rfl⟩ := thenTick_spec h
    have hbyte : (u.phase = .recv ∧ u.toCnt = s.toCnt ∧ ((pins s).rxValid = true → s.rxidx ≠ 9)) ∨
        (u.phase = .idle ∧ u.res.isSome = true ∧ (pins s).rxValid = true ∧ s.rxidx = 9) := by
      cases hvalid : (pins s).rxValid with
      | false =>
        rw [hvalid] at hu
        obtain rfl := Host.Outcome.next.inj hu
        exact .inl ⟨hrecv, rfl, nofun⟩
      | true =>
        rw [hvalid] at hu
        rcases rxByte_phase (s := edge s) hrecv hu with ⟨hp, hcnt, hne⟩ | ⟨hp, hres, hlast⟩
        · exact .inl ⟨hp, hcnt, fun _ => hne⟩
        · exact .inr ⟨hp, hres, rfl, hlast⟩
    rcases hbyte with ⟨hp, hcnt, hne⟩ | ⟨hp, hres, hlast⟩
    · cases htick : (pins s).tick with
      | false => exact .inl ⟨hp, rfl, hne, nofun⟩
      | true =>
        rcases tick_phase hp with ⟨hp', hlt⟩ | ⟨hp', hres, hle⟩
        · exact .inl ⟨hp', rfl, hne, fun _ => hcnt ▸ hlt⟩
        · exact .inr ⟨hp', hres, .inr (.inr ⟨rfl, rfl, hcnt ▸ hle⟩)⟩
    · rw [tick_off (by simp [hp]), ite_self]
      exact .inr ⟨hp, hres, .inr (.inl ⟨rfl, hlast⟩)⟩

/-! ### Runs -/

/-- A run follows any sequence of states in which each steps to the next. -/
theorem core_run_of_seq {f : Nat → State} {n : Nat} (h : ∀ k < n, step (f k) = .next (f (k + 1))) :
    Sys2Proof.core.run n (f 0) = .next (f n) := by
  induction n with
  | zero => rfl
  | succ n ih =>
    rw [core_run_add n 1 (ih fun k hk => h k (Nat.lt_succ_of_lt hk))]
    exact core_run_succ 0 (h n n.lt_succ_self)

/-- `n` clock edges and nothing else: the input cycles are taken and the clock counts them (log 2, log 3). -/
def elapse (n : Nat) (s : State) : State := { s with inputs := s.inputs.drop n, clock := s.clock + n }

theorem edge_elapse (n : Nat) (s : State) : edge (elapse n s) = elapse (n + 1) s := by
  simp only [edge, elapse, List.tail_drop, Nat.add_assoc]

/-- Among placed input cycles, the pins after `k` clock edges are those of cycle `k`. -/
theorem pins_elapse {s : State} {ps rest : List InPins} (h : s.inputs = ps ++ rest) {k : Nat} (hk : k < ps.length) :
    pins (elapse k s) = ps[k] := by
  simp [pins, elapse, h, List.headD_eq_head?_getD, List.head?_drop, List.getElem?_append_left hk, hk]

/-- What holds of every placed input cycle and of the quiet pins holds of the pins at any time (log 2). -/
theorem pins_elapse_of_forall {Q : InPins → Prop} (hquiet : Q {}) {s : State} (h : ∀ p ∈ s.inputs, Q p) (k : Nat) :
    Q (pins (elapse k s)) := by
  by_cases hk : k < s.inputs.length
  · rw [pins_elapse (List.append_nil _).symm hk]
    exact h _ (List.getElem_mem hk)
  · have hnone : s.inputs.drop k = [] := List.drop_eq_nil_of_le (Nat.le_of_not_lt hk)
    simpa only [pins, elapse, hnone, List.headD_nil] using hquiet

/-! ### A run of ticks -/

/-- A receive phase after `k` ticks without a byte. -/
def ticked (k : Nat) (s : State) : State := { elapse k s with toCnt := s.toCnt - k }

theorem edge_ticked (k : Nat) (s : State) : edge (ticked k s) = { elapse (k + 1) s with toCnt := s.toCnt - k } := by
  rw [← edge_elapse]
  rfl

/-- A tick in a cycle without reset, fault and byte. -/
abbrev TickAlone (p : InPins) : Prop := p.rst = false ∧ p.rxFault = false ∧ p.rxValid = false ∧ p.tick = true

/-- R129: fewer ticks than `TO_CNT` are counted down and do not end the receive. -/
theorem run_ticks {n : Nat} {s : State} (hrecv : s.phase = .recv) (hcnt : n < s.toCnt)
    (hpins : ∀ k < n, TickAlone (pins (elapse k s))) : Sys2Proof.core.run n s = .next (ticked n s) := by
  refine core_run_of_seq (f := (ticked · s)) fun k hk => ?_
  obtain ⟨hrst, hfault, hvalid, htick⟩ := hpins k hk
  have hleft : 1 < s.toCnt - k := by omega
  rw [step_of_tick (s := ticked k s) hrecv hrst hfault hvalid htick, edge_ticked]
  exact congrArg Host.Outcome.next (tick_of_lt hrecv hleft)

/-! ### A whole send -/

/-- The bytes of a buffer up to and with the one read at `i` (R123). -/
theorem take_concat_of_memRead {f : Frame} {i : Nat} {b : Byte} (h : memRead f i = some b) :
    f.toList.take i ++ [b] = f.toList.take (i + 1) := by
  have hget : f.toList[i]? = some b := by simpa [memRead] using h
  rw [List.take_add_one, hget, Option.toList_some]

theorem take_frameLen (f : Frame) : f.toList.take 10 = f.toList := List.take_of_length_le (by simp)

/-- A send that began with byte 0 on offer, after `k` accepted bytes. -/
def sent (k : Nat) (s : State) : State :=
  { elapse k s with wire := s.wire ++ s.txbuf.toList.take k, txidx := BitVec.ofNat 4 k }

theorem sent_zero {s : State} (h : s.txidx = 0) : sent 0 s = s := by
  cases s
  simp_all [sent, elapse]

theorem edge_sent (k : Nat) (s : State) :
    edge (sent k s) =
      { elapse (k + 1) s with wire := s.wire ++ s.txbuf.toList.take k, txidx := BitVec.ofNat 4 k } := by
  rw [← edge_elapse]
  rfl

theorem index_ofNat_toNat {k : Nat} (h : k < 10) : (BitVec.ofNat 4 k).toNat = k := by
  rw [BitVec.toNat_ofNat]
  omega

theorem index_ofNat_succ (k : Nat) : BitVec.ofNat 4 k + 1 = BitVec.ofNat 4 (k + 1) := (BitVec.ofNat_add k 1).symm

/-- A channel that accepts, in a cycle without reset. -/
abbrev Ready (p : InPins) : Prop := p.rst = false ∧ p.txReady = true

/-- The step that sends byte `k` of the frame (R122). -/
theorem step_sent {k : Nat} {s : State} (hsend : s.phase = .send) (hk : k < 10) (hready : Ready (pins (elapse k s))) :
    step (sent k s) = .next (if k < 9 then sent (k + 1) s
      else endOfSend cfg
        { elapse (k + 1) s with wire := s.wire ++ s.txbuf.toList.take (k + 1), txidx := BitVec.ofNat 4 k }) := by
  have hidx : (sent k s).txidx.toNat = k := index_ofNat_toNat hk
  have hb : memRead s.txbuf k = some s.txbuf[k] := memRead_of_lt s.txbuf k hk
  have hoffer : memRead (sent k s).txbuf (sent k s).txidx.toNat = some s.txbuf[k] := by rwa [hidx]
  rw [step_of_ready (s := sent k s) hsend hready.1 hready.2 hoffer, hidx, edge_sent]
  simp only [sent, List.append_assoc, take_concat_of_memRead hb, index_ofNat_succ]

/-- R123, R124: ten cycles with a ready channel put the whole frame on the wire and end the send. -/
theorem run_send {s : State} {ps rest : List InPins} (hsend : s.phase = .send) (hfirst : s.txidx = 0)
    (hin : s.inputs = ps ++ rest) (hlen : ps.length = 10) (hps : ∀ q ∈ ps, Ready q) :
    Sys2Proof.core.run 10 s =
      .next (endOfSend cfg { elapse 10 s with wire := s.wire ++ s.txbuf.toList, txidx := 9 }) := by
  have hready (k : Nat) (hk : k < 10) : Ready (pins (elapse k s)) := by
    rw [pins_elapse hin (hlen ▸ hk)]
    exact hps _ (List.getElem_mem _)
  have hnine : Sys2Proof.core.run 9 s = .next (sent 9 s) := by
    have h : Sys2Proof.core.run 9 (sent 0 s) = .next (sent 9 s) := core_run_of_seq (f := (sent · s)) fun k hk => by
      rw [step_sent hsend (by omega) (hready k (by omega)), if_pos hk]
    rwa [sent_zero hfirst] at h
  have hlast := step_sent (k := 9) hsend (by decide) (hready 9 (by decide))
  rw [if_neg (by decide), take_frameLen] at hlast
  exact (core_run_add 9 1 hnine).trans (core_run_succ 0 hlast)

/-! ### A whole receive -/

/-- The buffer `b` with the first `k` bytes of `f` written over its own. -/
def overwrite (f : Frame) (k : Nat) (b : Frame) : Frame := Vector.ofFn fun j => if j.val < k then f[j] else b[j]

theorem overwrite_zero (f b : Frame) : overwrite f 0 b = b := by
  ext j hj
  simp [overwrite]

theorem overwrite_frameLen (f b : Frame) : overwrite f 10 b = f := by
  ext j hj
  simp [overwrite]

/-- The next byte of `f` written at its own index (R126). -/
theorem memWrite_overwrite (f b : Frame) {k : Nat} (hk : k < frameLen) :
    memWrite (overwrite f k b) k f[k] = some (overwrite f (k + 1) b) := by
  rw [memWrite_of_lt _ _ _ hk]
  congr 1
  refine Vector.ext fun j hj => ?_
  by_cases hjk : k = j
  · subst hjk
    simp [overwrite]
  · have hiff : j < k + 1 ↔ j < k := by omega
    rw [Vector.getElem_set_ne _ _ hjk]
    simp only [overwrite, Vector.getElem_ofFn, hiff]

/-- A receive phase that began with no byte taken, after the first `k` bytes of `f`. -/
def received (f : Frame) (k : Nat) (s : State) : State :=
  { elapse k s with rxbuf := overwrite f k s.rxbuf, rxidx := BitVec.ofNat 4 k }

theorem received_zero (f : Frame) {s : State} (h : s.rxidx = 0) : received f 0 s = s := by
  cases s
  simp_all [received, elapse, overwrite_zero]

theorem edge_received (f : Frame) (k : Nat) (s : State) :
    edge (received f k s) =
      { elapse (k + 1) s with rxbuf := overwrite f k s.rxbuf, rxidx := BitVec.ofNat 4 k } := by
  rw [← edge_elapse]
  rfl

/-- The byte `b` in a cycle without reset, fault and tick. -/
abbrev ByteAlone (b : Byte) (p : InPins) : Prop :=
  p.rst = false ∧ p.rxFault = false ∧ p.rxValid = true ∧ p.tick = false ∧ p.rxData = b

/-- The step that takes byte `k` of `f` (R126, R127). -/
theorem step_received {f : Frame} {k : Nat} {s : State} (hrecv : s.phase = .recv) (hk : k < 10)
    (hbyte : ByteAlone f[k] (pins (elapse k s))) :
    step (received f k s) = .next (if k < 9 then received f (k + 1) s
      else completeReply cfg
        { elapse (k + 1) s with rxbuf := overwrite f (k + 1) s.rxbuf, rxidx := BitVec.ofNat 4 k }) := by
  obtain ⟨hrst, hfault, hvalid, htick, hdata⟩ := hbyte
  have hidx : (received f k s).rxidx.toNat = k := index_ofNat_toNat hk
  have hw : memWrite (received f k s).rxbuf (received f k s).rxidx.toNat (pins (received f k s)).rxData =
      some (overwrite f (k + 1) s.rxbuf) := by
    rw [hidx]
    exact (congrArg _ hdata).trans (memWrite_overwrite f s.rxbuf hk)
  have htick' : (pins (received f k s)).tick = false := htick
  rw [step_of_byte (s := received f k s) hrecv hrst hfault hvalid hw, hidx, edge_received, htick']
  simp only [received, index_ofNat_succ]
  rfl

/-- R126, R127, R130: ten cycles with a byte each fill `RXBUF` and complete the command. -/
theorem run_receive {s : State} {f : Frame} {qs rest : List InPins} (hrecv : s.phase = .recv) (hfirst : s.rxidx = 0)
    (hin : s.inputs = qs ++ rest) (hdata : qs.map InPins.rxData = f.toList)
    (hqs : ∀ q ∈ qs, q.rst = false ∧ q.rxFault = false ∧ q.rxValid = true ∧ q.tick = false) :
    Sys2Proof.core.run 10 s = .next (completeReply cfg { elapse 10 s with rxbuf := f, rxidx := 9 }) := by
  have hlen : qs.length = 10 := by simpa using congrArg List.length hdata
  have hbyte (k : Nat) (hk : k < 10) : ByteAlone f[k] (pins (elapse k s)) := by
    rw [pins_elapse hin (hlen ▸ hk)]
    obtain ⟨hrst, hfault, hvalid, htick⟩ := hqs _ (List.getElem_mem (hlen ▸ hk))
    have hget : (qs.map InPins.rxData)[k]? = f.toList[k]? := by rw [hdata]
    exact ⟨hrst, hfault, hvalid, htick, by simpa [hlen, hk] using hget⟩
  have hnine : Sys2Proof.core.run 9 s = .next (received f 9 s) := by
    have h : Sys2Proof.core.run 9 (received f 0 s) = .next (received f 9 s) :=
      core_run_of_seq (f := (received f · s)) fun k hk => by
        rw [step_received hrecv (by omega) (hbyte k (by omega)), if_pos hk]
    rwa [received_zero f hfirst] at h
  have hlast := step_received (k := 9) hrecv (by decide) (hbyte 9 (by decide))
  rw [if_neg (by decide), overwrite_frameLen] at hlast
  exact (core_run_add 9 1 hnine).trans (core_run_succ 0 hlast)

/-- R120, R123, R124: a command accepted and ten cycles with a ready channel put its frame on the wire and end the
send. -/
theorem run_command {s : State} {cmd : TxCmd} {p : InPins} {ps rest : List InPins} (hidle : s.phase = .idle)
    (hin : s.inputs = p :: (ps ++ rest)) (hrst : p.rst = false) (hvalid : p.cmdValid = true)
    (hid : p.cmdId = idOfCmd cmd) (hlegal : argLegal cfg cmd p.cmdArg = true) (hlen : ps.length = 10)
    (hps : ∀ q ∈ ps, Ready q) :
    Sys2Proof.core.run 11 s = .next (endOfSend cfg
      { sending (idOfCmd cmd) p.cmdArg (cfg.opc cmd) (frameArg cmd p.cmdArg) s with
        txidx := 9, wire := s.wire ++ (buildFn cfg (cfg.opc cmd) s.isReply (frameArg cmd p.cmdArg)).toList,
        inputs := rest, clock := s.clock + 11 }) := by
  have hpins : pins s = p := by simp [pins, hin]
  have haccept : step s =
      .next (sending (idOfCmd cmd) p.cmdArg (cfg.opc cmd) (frameArg cmd p.cmdArg) (edge s)) := by
    rw [step_of_idle hidle (hpins ▸ hrst), hpins, if_pos hvalid, hid, accept_of_argLegal (s := edge s) hidle hlegal]
  have htail : (edge s).inputs = ps ++ rest := by rw [edge_inputs, hin, List.tail_cons]
  have hdrop : (ps ++ rest).drop 10 = rest := List.drop_left' hlen
  refine (core_run_succ 10 haccept).trans ((run_send (s := sending _ _ _ _ (edge s)) rfl rfl htail hlen hps).trans ?_)
  simp only [elapse, sending, htail, hdrop, edge_clock, edge_wire, edge_isReply, edge_rxbuf, edge_rxidx, edge_toCnt,
    Nat.add_assoc, Nat.reduceAdd]

end Sys2Proof.Machine

namespace Sys2Proof

open Machine

/-- Settles O59: the command is sent, its reply window opens, and the ten bytes received there complete it. -/
theorem commandAndReplyRun : Obligations.CommandAndReplyRun := by
  intro s cmd p ps qs rest f hidle hwait hin hrst hvalid hid hlegal hlen hps hdata hqs
  have hsend := (run_command hidle hin hrst hvalid hid hlegal hlen hps).trans
    (congrArg Host.Outcome.next (endOfSend_of_expectsReply cfg hwait))
  have hrun := (core_run_add 11 10 hsend).trans (run_receive rfl rfl rfl hdata hqs)
  have hlen' : qs.length = 10 := by simpa using congrArg List.length hdata
  have hdrop : (qs ++ rest).drop 10 = rest := List.drop_left' hlen'
  refine ⟨_, hrun, ?_⟩
  cases hparse : parse cfg f.toList with
  | error e =>
    rw [completeReply_of_error hparse]
    exact ⟨rfl, rfl, rfl, rfl, hdrop, rfl⟩
  | decoded k m v =>
    rw [completeReply_of_decoded hparse]
    exact ⟨rfl, rfl, rfl, rfl, hdrop, rfl⟩

/-- Settles O58: the command is sent, and no reply is awaited. -/
theorem fireAndForgetRun : Obligations.FireAndForgetRun := by
  intro s cmd p ps rest hidle hmode hquery hin hrst hvalid hid hlegal hlen hps
  have hwait : expectsReply (idOfCmd cmd) s.isReply = false := by simp [expectsReply, hquery, hmode]
  have hrun := (run_command hidle hin hrst hvalid hid hlegal hlen hps).trans
    (congrArg Host.Outcome.next (endOfSend_of_not_expectsReply cfg hwait))
  rw [hmode] at hrun
  exact ⟨_, hrun, rfl, rfl, rfl, hmode, rfl, rfl⟩

/-- Settles O44: the step stores the byte and completes the command by its reply. -/
theorem tenthByteCompletesByParse : Obligations.TenthByteCompletesByParse := by
  intro s hrecv hlast hrst hfault hvalid
  have hw := memWrite_of_lt s.rxbuf 9 (pins s).rxData (by decide)
  exact ⟨_, hw, by rw [step_of_tenth_byte hrecv hlast hrst hfault hvalid hw, completeReply_cfg]⟩

/-- Settles O48: the fault alone; a byte below the tenth and then the tick; the tenth byte. -/
theorem sameCyclePriority : Obligations.SameCyclePriority := by
  intro s hrecv hrst
  refine ⟨step_of_fault hrecv hrst, fun hfault hvalid hlt => ?_, fun hfault hvalid hnine =>
    tenthByteCompletesByParse s hrecv (index_toNat_eq_nine_iff.mp hnine) hrst hfault hvalid⟩
  have hw := memWrite_of_lt s.rxbuf s.rxidx.toNat (pins s).rxData (Nat.lt_succ_of_lt hlt)
  refine ⟨_, hw, ?_⟩
  rw [step_of_byte hrecv hrst hfault hvalid hw, if_pos hlt]
  cases htick : (pins s).tick with
  | false => rfl
  | true =>
    simp only [thenTick, Bool.true_eq_false, if_true, if_false]
    by_cases hcnt : 1 < s.toCnt
    · rw [if_pos hcnt]
      exact congrArg Host.Outcome.next (tick_of_lt hrecv hcnt)
    · rw [if_neg hcnt]
      exact congrArg Host.Outcome.next (tick_of_le hrecv (Nat.le_of_not_lt hcnt))

/-- Settles O47: `n` ticks leave one, and the next is the last. -/
theorem timeoutAtTheLastTick : Obligations.TimeoutAtTheLastTick := by
  intro n s hrecv hcnt hticks hlen
  have hpins (k : Nat) (hk : k < n + 1) : TickAlone (pins (elapse k s)) := by
    have hk' : k < (s.inputs.take (n + 1)).length := by rwa [List.length_take_of_le hlen]
    rw [pins_elapse (List.take_append_drop (n + 1) s.inputs).symm hk']
    exact hticks _ (List.getElem_mem hk')
  have hone : s.toCnt - n = 1 := by omega
  have hrun : Sys2Proof.core.run n s = .next { elapse n s with toCnt := 1 } := by
    rw [run_ticks hrecv (by omega) fun k hk => hpins k (Nat.lt_succ_of_lt hk), ticked, hone]
  obtain ⟨hrst, hfault, hvalid, htick⟩ := hpins n n.lt_succ_self
  have hlast := (step_of_tick (s := { elapse n s with toCnt := 1 }) hrecv hrst hfault hvalid htick).trans
    (congrArg Host.Outcome.next (tick_of_le hrecv Nat.le.refl))
  have hedge : edge { elapse n s with toCnt := 1 } = { elapse (n + 1) s with toCnt := 1 } := by
    rw [← edge_elapse]
    rfl
  rw [hedge] at hlast
  exact ⟨hrun, (core_run_add n 1 hrun).trans (core_run_succ 0 hlast)⟩

/-- Settles O53, phase by phase. -/
theorem phaseGraph : Obligations.PhaseGraph := by
  intro s t h hrst
  cases hp : s.phase with
  | idle => exact (step_phase_of_idle h hrst hp).imp (⟨rfl, ·⟩) fun h => .inl ⟨rfl, h⟩
  | send =>
    exact .inr (.inr ((step_phase_of_send h hrst hp).imp (⟨rfl, ·⟩) (.imp (⟨rfl, ·⟩) fun h => .inl ⟨rfl, h⟩)))
  | recv => exact .inr (.inr (.inr (.inr (.inr ((step_phase_of_recv h hrst hp).imp (⟨rfl, ·⟩) (⟨rfl, ·⟩))))))

/-- Settles O41: a ready channel takes the next byte of the frame, the tenth being its last. -/
theorem sendEmitsTheFrameInOrder : Obligations.SendEmitsTheFrameInOrder := by
  intro w s t hsend hle hrst hwire h
  rw [step_of_send hsend hrst] at h
  cases hready : (pins s).txReady with
  | false =>
    rw [hready] at h
    obtain rfl := Host.Outcome.next.inj h
    exact ⟨rfl, .inl ⟨hsend, hle, hwire⟩⟩
  | true =>
    rw [hready] at h
    refine ⟨by rw [txAccept_frame h]; rfl, ?_⟩
    rcases txAccept_spec h with ⟨hoff, -⟩ | ⟨-, b, hb, hcase⟩
    · exact absurd hsend hoff
    have hwire' : (emit b (edge s)).wire = w ++ s.txbuf.toList.take (s.txidx.toNat + 1) := by
      rw [emit_wire, edge_wire, hwire, List.append_assoc, take_concat_of_memRead (f := s.txbuf) (i := s.txidx.toNat) hb]
    rcases hcase with ⟨hlt, rfl⟩ | ⟨hnlt, rfl⟩
    · have hsucc : (s.txidx + 1).toNat = s.txidx.toNat + 1 := index_succ_toNat hlt
      exact .inl ⟨hsend, hsucc ▸ hlt, hsucc ▸ hwire'⟩
    · have hnine : s.txidx.toNat = 9 := Nat.eq_of_lt_succ_of_not_lt (Nat.lt_succ_of_le hle) hnlt
      rw [hnine, take_frameLen] at hwire'
      exact .inr ⟨endOfSend_phase_ne_send _ _, by rw [endOfSend_frame, hwire']⟩

/-- Settles O40: the two pins reach no port of `SEND`, and a cycle without acceptance is the clock edge alone. -/
theorem stalledChannelHangs : Obligations.StalledChannelHangs := by
  refine ⟨fun p fault tick s hsend => cycle_of_not_recv p fault tick (by simp [hsend]), fun n s hsend hstall => ?_⟩
  refine core_run_of_seq (f := (elapse · s)) fun k _ => ?_
  obtain ⟨hrst, hready⟩ :=
    pins_elapse_of_forall (Q := fun p => p.rst = false ∧ p.txReady = false) ⟨rfl, rfl⟩ hstall k
  rw [step_of_not_ready (s := elapse k s) hsend hrst hready, edge_elapse]

/-- Settles O27: a command is well formed, and a reply row that is not has a wrong checksum. -/
theorem illFormedReplyIsProtoChecksum : Obligations.IllFormedReplyIsProtoChecksum := by
  intro i s hwf hrecv hlast
  rw [Instr.wellFormed] at hwf
  rcases encode_cases i with ⟨id, a, -, hdec⟩ | ⟨m, r, -, hdec⟩
  · simp [wellFormedIn_of_decodeCommand cfg hdec] at hwf
  · rw [wellFormedIn_of_decodeReplyByte hdec] at hwf
    rw [exec_eq_execIn, execIn_of_decodeReplyByte hdec, completeAs_of_not_checksumValid hrecv hlast hwf]

/-- Settles O26: each row is the completion by its own byte with its own kind. -/
theorem replyRowEndsTheCommand : Obligations.ReplyRowEndsTheCommand := by
  intro r s hrecv hlast
  have hrow (m : Byte) (k : Kind) (hsum : r.checksumValid m = true) :
      (.next (completeAs m k r s) : StepOutcome) = .next (ended .okReply k m r.value s) :=
    congrArg Host.Outcome.next (completeAs_of_checksumValid hrecv hlast hsum)
  exact ⟨hrow 0x41 .ack, hrow 0x40 .periphError, hrow 0x3F .mediaPresent, hrow 0x42 .playState, hrow 0x43 .volume,
    hrow 0x47 .countUsb, hrow 0x48 .countSd, hrow 0x49 .countFlash, hrow 0x4B .curUsb, hrow 0x4C .curSd,
    hrow 0x4D .curFlash⟩

/-- Settles O35: both sides complete the command by the ten stored bytes. -/
theorem stepRunsTheDecodedReply : Obligations.StepRunsTheDecodedReply := by
  intro s u i hrecv hlast hrst hfault hvalid hstore hdec
  obtain ⟨buf, hw, rfl⟩ := storeReceived_spec hstore
  rw [edge_rxidx, hlast] at hw
  rw [step_of_tenth_byte hrecv hlast hrst hfault hvalid hw]
  exact (exec_of_decode_rxbuf (s := { edge s with rxbuf := buf }) hrecv hlast hdec).symm

/-- Settles O38. -/
theorem idleIgnoresBytesFaultsAndTicks : Obligations.IdleIgnoresBytesFaultsAndTicks := by
  intro s hidle hrst hvalid
  rw [step_of_idle hidle hrst, hvalid]
  rfl

/-- Settles O39: no acceptance, a byte below the last, the last byte. -/
theorem transmitStep : Obligations.TransmitStep := by
  intro s b hsend hrst hb
  refine ⟨step_of_not_ready hsend hrst, fun hready hlt => ?_, fun hready hnine => ?_⟩
  · rw [step_of_ready hsend hrst hready hb, if_pos hlt]
  · rw [step_of_ready hsend hrst hready hb, if_neg (Nat.not_lt_of_le hnine.ge), endOfSend_cfg]

/-- Settles O43: the byte below the tenth of a cycle without a tick. -/
theorem receivedByteIsStored : Obligations.ReceivedByteIsStored := by
  intro s hrecv hrst hfault hvalid htick hlt
  obtain ⟨-, hbyte, -⟩ := sameCyclePriority s hrecv hrst
  simpa only [htick, if_true] using hbyte hfault hvalid hlt

/-- Settles O45. -/
theorem linkFaultEndsOnlyAReceive : Obligations.LinkFaultEndsOnlyAReceive :=
  ⟨fun _ => step_of_fault, fun p f _ hp => cycle_of_not_recv p f p.tick hp⟩

/-- Settles O46: a tick that is not the last, the last, and the phases without a timer. -/
theorem tickCountsDownAReceive : Obligations.TickCountsDownAReceive := by
  refine ⟨fun s hrecv hrst hfault hvalid htick => ?_, fun p b s hp => cycle_of_not_recv p p.rxFault b hp⟩
  rw [step_of_tick hrecv hrst hfault hvalid htick]
  exact ⟨fun hcnt => congrArg Host.Outcome.next (tick_of_lt hrecv hcnt),
    fun hcnt => congrArg Host.Outcome.next (tick_of_le hrecv hcnt)⟩

end Sys2Proof
end

section
/-! The statements of spec/42_frame_decoder.md: the four checks in their order (R151 to R154), what is accepted (R155, R159)
and that a changed byte is caught (R155, R160). -/

namespace Sys2Proof.Machine

/-! ### Sequences of any length -/

/-- A sequence either has the wrong length, or is the ten bytes of a frame. -/
theorem length_ne_or_eq_toList (bs : List Byte) : bs.length ≠ 10 ∨ ∃ f : Frame, bs = f.toList := by
  cases h : frameOfBytes bs with
  | none => exact .inl (frameOfBytes_eq_none.mp h)
  | some f => exact .inr ⟨f, frameOfBytes_eq_some h⟩

theorem parse_of_length_ne (c : Cfg) {bs : List Byte} (h : bs.length ≠ 10) : parse c bs = .error .badLength := by
  rw [parse, frameOfBytes_eq_none.mpr h]

/-- Every answer but `BadLength` is an answer on ten bytes (R151). -/
theorem parse_eq_iff_exists_frame {c : Cfg} {bs : List Byte} {p : Parsed} (hp : p ≠ .error .badLength) :
    parse c bs = p ↔ ∃ f : Frame, bs = f.toList ∧ parse c f.toList = p := by
  constructor
  · intro h
    rcases length_ne_or_eq_toList bs with hlen | ⟨f, rfl⟩
    · exact absurd (h.symm.trans (parse_of_length_ne c hlen)) hp
    · exact ⟨f, rfl, h⟩
  · rintro ⟨f, rfl, h⟩
    exact h

/-! ### The verdicts on ten bytes -/

section
variable {c : Cfg} {f : Frame}

theorem parse_frame_ne_badLength : parse c f.toList ≠ .error .badLength := by
  rw [parse_frame]
  split_ifs <;> simp

theorem parse_frame_eq_badStartMarker_iff : parse c f.toList = .error .badStartMarker ↔ f[0] ≠ c.start := by
  rw [parse_frame]
  by_cases hstart : f[0] = c.start
  · rw [if_neg (not_not.mpr hstart)]
    split_ifs <;> simp [hstart]
  · simp [hstart]

theorem parse_frame_eq_badEndMarker_iff :
    parse c f.toList = .error .badEndMarker ↔ f[0] = c.start ∧ f[9] ≠ c.endMark := by
  rw [parse_frame]
  by_cases hstart : f[0] = c.start
  · by_cases hend : f[9] = c.endMark
    · rw [if_neg (not_not.mpr hstart), if_neg (not_not.mpr hend)]
      split_ifs <;> simp [hend]
    · simp [hstart, hend]
  · simp [hstart]

theorem parse_frame_eq_checksumMismatch_iff :
    parse c f.toList = .error .checksumMismatch ↔
      f[0] = c.start ∧ f[9] = c.endMark ∧ cat f[7] f[8] ≠ neg16 (sum6 f) := by
  rw [parse_frame]
  by_cases hstart : f[0] = c.start
  · by_cases hend : f[9] = c.endMark
    · by_cases hsum : cat f[7] f[8] = neg16 (sum6 f)
      · simp [hstart, hend, hsum]
      · simp [hstart, hend, hsum]
    · simp [hstart, hend]
  · simp [hstart]

/-- The accepted frames (R159), whatever is read from them. -/
theorem exists_parse_frame_eq_decoded_iff :
    (∃ k m v, parse c f.toList = .decoded k m v) ↔
      f[0] = c.start ∧ f[9] = c.endMark ∧ cat f[7] f[8] = neg16 (sum6 f) := by
  constructor
  · rintro ⟨k, m, v, h⟩
    exact (parse_frame_eq_decoded_iff.mp h).1
  · intro h
    exact ⟨_, _, _, parse_frame_eq_decoded_iff.mpr ⟨h, rfl, rfl, rfl⟩⟩

/-- An accepted frame is the reply frame of its body: its markers and its checksum are no choice (R159). -/
theorem eq_replyFrame_of_decoded {k : Kind} {m : Byte} {v : U16} (h : parse c f.toList = .decoded k m v) :
    f = replyFrame c f[3] ⟨f[1], f[2], f[4], cat f[5] f[6], neg16 (sum6 f)⟩ := by
  obtain ⟨⟨hstart, hend, hsum⟩, -⟩ := parse_frame_eq_decoded_iff.mp h
  rw [← hsum]
  exact (replyFrame_fields hstart hend).symm

end

/-- A reply frame with a valid checksum is accepted, whatever its version, length and ack bytes are (R155). -/
theorem parse_replyFrame_of_checksumValid (c : Cfg) {m : Byte} {r : ReplyFields} (h : r.checksumValid m = true) :
    parse c (replyFrame c m r).toList = .decoded (classify c m) m r.value := by
  have hsum : cat (hi r.checksum) (lo r.checksum) = neg16 (sum6 (replyFrame c m r)) :=
    (cat_hi_lo r.checksum).trans (of_decide_eq_true h)
  exact parse_frame_eq_decoded_iff.mpr ⟨⟨rfl, rfl, hsum⟩, rfl, rfl, cat_hi_lo r.value⟩

/-! ### One byte changed -/

/-- What byte `i` counts for in the sum of the body and the checksum: the body bytes and the low checksum byte once, the high
checksum byte 256 times (R50, R101). -/
def byteWeight (i : Nat) : Nat := if i = 7 then 256 else 1

/-- A byte from 1 to 8 replaced moves the sum of the body and the checksum by the difference of the two bytes, weighted. -/
theorem sum6_add_checksum_set (f : Frame) {i : Nat} (hidx : i < 10) (hlo : 1 ≤ i) (hhi : i ≤ 8) (x : Byte) :
    sum6 (f.set i x) + (cat (f.set i x)[7] (f.set i x)[8]).toNat + byteWeight i * f[i].toNat =
      sum6 f + (cat f[7] f[8]).toNat + byteWeight i * x.toNat := by
  simp only [sum6, bodySum, cat_toNat]
  interval_cases i <;> simp [byteWeight] <;> omega

/-- No two values of a byte count for the same modulo 65536. -/
theorem byteWeight_mul_mod_inj {i : Nat} {x y : Byte}
    (h : byteWeight i * x.toNat % 65536 = byteWeight i * y.toNat % 65536) : x = y := by
  have hx : x.toNat < 256 := x.isLt
  have hy : y.toNat < 256 := y.isLt
  apply BitVec.eq_of_toNat_eq
  by_cases h7 : i = 7
  · rw [byteWeight, if_pos h7] at h
    omega
  · rw [byteWeight, if_neg h7] at h
    omega

/-- Any other byte in any one of the places 1 to 8 of an accepted frame is a `ChecksumMismatch` (R155, R160): both sums would
have to be 0 modulo 65536 (R103). -/
theorem parse_set_eq_checksumMismatch {c : Cfg} {f : Frame} {k : Kind} {m : Byte} {v : U16}
    (hparse : parse c f.toList = .decoded k m v) {i : Nat} (hidx : i < 10) (hlo : 1 ≤ i) (hhi : i ≤ 8) {x : Byte}
    (hx : x ≠ f[i]) :
    parse c (f.set i x).toList = .error .checksumMismatch := by
  obtain ⟨⟨hstart, hend, hsum⟩, -⟩ := parse_frame_eq_decoded_iff.mp hparse
  obtain ⟨hvalid, -⟩ := checksumValidIffSumIsZero
  refine parse_frame_eq_checksumMismatch_iff.mpr
    ⟨(Vector.getElem_set_ne hidx (by decide) (Nat.ne_of_gt hlo)).trans hstart,
      (Vector.getElem_set_ne hidx (by decide) (by omega)).trans hend, fun hsum' => hx ?_⟩
  have hzero := (hvalid f).mpr hsum
  have hzero' := (hvalid (f.set i x)).mpr hsum'
  have hmove := sum6_add_checksum_set f hidx hlo hhi x
  exact byteWeight_mul_mod_inj (i := i) (by omega)

/-- Flipping a bit gives another byte. -/
theorem xor_twoPow_ne (b : Byte) (k : Fin 8) : b ^^^ BitVec.twoPow 8 k ≠ b := by
  intro h
  have hbit := congrArg (BitVec.getLsbD · k) h
  simp at hbit

end Sys2Proof.Machine

namespace Sys2Proof

open Machine

/-- Settles O9: on ten bytes by the order of the checks; a sequence of another length has neither verdict. -/
theorem markerVerdicts : Obligations.MarkerVerdicts := by
  intro c bs
  rcases length_ne_or_eq_toList bs with hlen | ⟨f, rfl⟩
  · simp [parse_of_length_ne c hlen, hlen]
  · simp [parse_frame_eq_badStartMarker_iff, parse_frame_eq_badEndMarker_iff]

/-- Settles O10: a mismatch is a verdict on a frame, and R103 turns its first form into its second. -/
theorem checksumVerdict : Obligations.ChecksumVerdict := by
  intro c bs
  obtain ⟨hvalid, -⟩ := checksumValidIffSumIsZero
  have hverdict : parse c bs = .error .checksumMismatch ↔
      ∃ f : Frame, bs = f.toList ∧ f[0] = c.start ∧ f[9] = c.endMark ∧ cat f[7] f[8] ≠ neg16 (sum6 f) :=
    (parse_eq_iff_exists_frame (by simp)).trans
      (exists_congr fun _ => and_congr_right fun _ => parse_frame_eq_checksumMismatch_iff)
  exact ⟨hverdict, by simpa only [ne_eq, hvalid] using hverdict⟩

/-- Settles O11: what is accepted is a frame with right markers and checksum; the one of a body is its reply frame. -/
theorem acceptedFrames : Obligations.AcceptedFrames := by
  refine ⟨fun c bs => ⟨?_, ?_⟩, fun c b1 b2 b3 b4 b5 b6 => ?_⟩
  · rintro ⟨k, m, v, h⟩
    obtain ⟨f, hbs, hf⟩ := (parse_eq_iff_exists_frame (by simp)).mp h
    exact ⟨f, hbs, exists_parse_frame_eq_decoded_iff.mp ⟨k, m, v, hf⟩⟩
  · rintro ⟨f, rfl, hf⟩
    exact exists_parse_frame_eq_decoded_iff.mpr hf
  · have hvalid : ReplyFields.checksumValid b3 ⟨b1, b2, b4, cat b5 b6, neg16 (bodySum b1 b2 b3 b4 b5 b6)⟩ = true := by
      simp [ReplyFields.checksumValid]
    refine ⟨_, ⟨⟨rfl, rfl, rfl, rfl, hi_cat b5 b6, lo_cat b5 b6⟩, _, _, _, parse_replyFrame_of_checksumValid c hvalid⟩, ?_⟩
    rintro g ⟨⟨rfl, rfl, rfl, rfl, rfl, rfl⟩, k, m, v, hg⟩
    exact eq_replyFrame_of_decoded hg

/-- Settles O12: the frame of any three bytes under its own checksum is accepted, and one byte changed is caught. -/
theorem versionLengthAckOnlySummed : Obligations.VersionLengthAckOnlySummed := by
  refine ⟨fun c version length ackFlag cmd value => ?_, fun c f k m v x hparse => ⟨?_, ?_, ?_⟩⟩
  · exact parse_replyFrame_of_checksumValid c (r := ⟨version, length, ackFlag, value, _⟩) (decide_eq_true rfl)
  · exact parse_set_eq_checksumMismatch hparse (by decide) (by decide) (by decide)
  · exact parse_set_eq_checksumMismatch hparse (by decide) (by decide) (by decide)
  · exact parse_set_eq_checksumMismatch hparse (by decide) (by decide) (by decide)

/-- Settles O13: a built frame is accepted (R107), and a flipped bit changes one of its bytes 1 to 8. -/
theorem singleBitFlipIsMismatch : Obligations.SingleBitFlipIsMismatch := by
  intro c op ack arg i k hlo hhi
  exact parse_set_eq_checksumMismatch (parseOfBuildIsDecoded c op ack arg) i.isLt hlo hhi (xor_twoPow_ne _ k)

/-- Settles O8. -/
theorem badLengthIffNotTenBytes : Obligations.BadLengthIffNotTenBytes := by
  intro c bs
  refine ⟨fun h => ?_, parse_of_length_ne c⟩
  rcases length_ne_or_eq_toList bs with hlen | ⟨f, rfl⟩
  · exact hlen
  · exact absurd h parse_frame_ne_badLength

end Sys2Proof
end

section
/-! The statements of spec/43_command_mapper.md: what `Map` decides and that the acceptance step does it (R180 to R185, R212),
the commands one by one (R186 to R211), and for which of them a reply is received (R182, R249). -/

namespace Sys2Proof.Machine

/-! ### Identifiers and operands -/

theorem classOfId_eq_transmit_iff {id : CmdId} {t : TxCmd} : classOfId id = .transmit t ↔ id = idOfCmd t :=
  ⟨classOfId_eq_transmit, fun h => by rw [h, classOfId_idOfCmd]⟩

theorem classOfId_eq_replyMode_iff {id : CmdId} : classOfId id = .replyMode ↔ id = 23 :=
  ⟨classOfId_eq_replyMode, fun h => by rw [h]; rfl⟩

/-- `expects_reply` as the decision of R182 in its own numbers. -/
theorem expectsReply_eq_decide (id : CmdId) (m : Bool) : expectsReply id m = decide (AwaitsReply id m) :=
  Bool.eq_iff_iff.mpr ((expectsReply_iff id m).trans decide_eq_true_iff.symm)

theorem frameArg_of_carries {t : TxCmd} (a : U16) (h : carries t = true) : frameArg t a = a := if_pos h

theorem frameArg_of_not_carries {t : TxCmd} (a : U16) (h : carries t = false) : frameArg t a = 0 := if_neg (by simp [h])

/-- The three commands with a checked operand carry it, so an argumentless command is legal with any (R184, R185). -/
theorem argLegal_of_not_carries (c : Cfg) {t : TxCmd} (a : U16) (h : carries t = false) : argLegal c t a = true := by
  cases t
  case setVolume | setEq | setDevice => cases h
  all_goals rfl

/-- The argument of a built frame, read back from its bytes 5 and 6 (R50, R52). -/
theorem memRead2_buildFn (c : Cfg) (op : Byte) (ack : Bool) (arg : U16) :
    memRead2 (buildFn c op ack arg) 5 = some arg := by
  have hhi : memRead (buildFn c op ack arg) 5 = some (hi arg) := rfl
  have hlo : memRead (buildFn c op ack arg) 6 = some (lo arg) := rfl
  rw [memRead2_of_reads hhi hlo, cat_hi_lo]

/-! ### What `Map` decides (R212) -/

section
variable {c : Cfg} {id : CmdId} {a : U16} {isReply : Bool}

theorem mapCommand_eq_reject_iff :
    mapCommand c id a isReply = .reject ↔
      classOfId id = .reserved ∨ ∃ t, classOfId id = .transmit t ∧ argLegal c t a = false := by
  unfold mapCommand
  cases classOfId id with
  | reserved => simp
  | replyMode => simp
  | transmit t => cases h : argLegal c t a <;> simp [h]

theorem mapCommand_eq_setLocal_iff {m : Bool} :
    mapCommand c id a isReply = .setLocal m ↔ classOfId id = .replyMode ∧ m = boolArg a := by
  unfold mapCommand
  cases classOfId id with
  | reserved => simp
  | replyMode => simp [eq_comm (a := m)]
  | transmit t => cases h : argLegal c t a <;> simp [h]

theorem mapCommand_eq_send_iff {op : Byte} {ack : Bool} {arg : U16} {wait : Bool} :
    mapCommand c id a isReply = .send op ack arg wait ↔
      ∃ t, classOfId id = .transmit t ∧ argLegal c t a = true ∧ op = c.opc t ∧ ack = isReply ∧
        arg = frameArg t a ∧ wait = expectsReply id isReply := by
  unfold mapCommand
  cases classOfId id with
  | reserved => simp
  | replyMode => simp
  | transmit t =>
    cases h : argLegal c t a with
    | false => simp [h]
    | true =>
      simp [h, expectsReply, eq_comm (a := op), eq_comm (a := ack), eq_comm (a := arg), eq_comm (a := wait)]

end

/-! ### The acceptance step does it -/

/-- What an action of `Map` makes of an idle block that accepts the command (R180, R183, R203). -/
def performAction (c : Cfg) (id : CmdId) (a : U16) (s : State) : Action → State
  | .reject => rejected id a s
  | .setLocal m => setReplyMode m (latch id a s)
  | .send op ack arg _ => beginSend (build c op ack arg (latch id a s))

/-- R212: while idle, `Accept` performs the action of `Map`. -/
theorem accept_eq_performAction (c : Cfg) (id : CmdId) (a : U16) {s : State} (hidle : s.phase = .idle) :
    accept c id a s = performAction c id a s (mapCommand c id a s.isReply) := by
  rcases accept_spec c id a s with ⟨hbusy, -⟩ | ⟨-, hclass, h⟩ | ⟨-, hclass, h⟩ | ⟨-, t, hclass, hlegal, h⟩
  · exact absurd hidle hbusy
  · rw [h, mapCommand_eq_setLocal_iff.mpr ⟨hclass, rfl⟩, performAction]
  · rw [h, mapCommand_eq_reject_iff.mpr hclass, performAction, raise_latch_of_idle id a hidle]
  · rw [h, mapCommand_eq_send_iff.mpr ⟨t, hclass, hlegal, rfl, rfl, rfl, rfl⟩, performAction]

/-- An illegal operand is a rejection, in every configuration (R183). -/
theorem accept_of_not_argLegal (c : Cfg) {id : CmdId} {t : TxCmd} {a : U16} {s : State} (hidle : s.phase = .idle)
    (hclass : classOfId id = .transmit t) (hillegal : argLegal c t a = false) :
    accept c id a s = rejected id a s := by
  rw [accept_eq_performAction c id a hidle, mapCommand_eq_reject_iff.mpr (.inr ⟨t, hclass, hillegal⟩), performAction]

/-- A legal operand begins the send of the command's frame, in every configuration (R180). -/
theorem acceptIn_of_argLegal (c : Cfg) {t : TxCmd} {a : U16} {s : State} (hidle : s.phase = .idle)
    (hlegal : argLegal c t a = true) :
    accept c (idOfCmd t) a s =
      beginSend (build c (c.opc t) s.isReply (frameArg t a) (latch (idOfCmd t) a s)) := by
  rw [accept_eq_performAction c _ a hidle,
    mapCommand_eq_send_iff.mpr ⟨t, classOfId_idOfCmd t, hlegal, rfl, rfl, rfl, rfl⟩, performAction]

/-! ### The instruction of a transmitting command -/

section
variable {i : Instr} {t : TxCmd} {a : U16} {s : State}

theorem exec_of_argLegal (hexec : exec i s = .next (accept cfg (idOfCmd t) a s)) (hidle : s.phase = .idle)
    (hlegal : argLegal cfg t a = true) :
    exec i s = .next (sending (idOfCmd t) a (cfg.opc t) (frameArg t a) s) := by
  rw [hexec, accept_of_argLegal hidle hlegal]

theorem exec_of_not_argLegal (hexec : exec i s = .next (accept cfg (idOfCmd t) a s)) (hidle : s.phase = .idle)
    (hillegal : argLegal cfg t a = false) : exec i s = .next (rejected (idOfCmd t) a s) := by
  rw [hexec, accept_of_not_argLegal cfg hidle (classOfId_idOfCmd t) hillegal]

end

/-! ### Only an awaited reply is received (R182, R249) -/

/-- In `RECV` the latched command awaits a reply. -/
def ReceivesAwaited (s : State) : Prop := s.phase = .recv → AwaitsReply s.cmdId s.isReply

theorem receivesAwaited_of_phase_ne {s : State} (h : s.phase ≠ .recv) : ReceivesAwaited s := fun hrecv => absurd hrecv h

theorem ReceivesAwaited.accept {s : State} (hs : ReceivesAwaited s) (id : CmdId) (a : U16) :
    ReceivesAwaited (accept cfg id a s) := by
  rcases accept_spec cfg id a s with ⟨-, h⟩ | ⟨hidle, -, h⟩ | ⟨-, -, h⟩ | ⟨-, t, -, -, h⟩ <;> rw [h]
  · exact hs
  · exact receivesAwaited_of_phase_ne (by simp [hidle])
  · exact receivesAwaited_of_phase_ne nofun
  · exact receivesAwaited_of_phase_ne nofun

/-- The end of a send opens the receive window only where R182 says that a reply is awaited (R124). -/
theorem receivesAwaited_endOfSend (s : State) : ReceivesAwaited (endOfSend cfg s) := by
  rcases endOfSend_spec cfg s with ⟨hwait, h⟩ | ⟨-, h⟩ <;> rw [h]
  · exact fun _ => (expectsReply_iff _ _).mp hwait
  · exact receivesAwaited_of_phase_ne nofun

theorem ReceivesAwaited.txAccept {s t : State} (hs : ReceivesAwaited s) (h : txAccept cfg s = .next t) :
    ReceivesAwaited t := by
  rcases txAccept_spec h with ⟨-, rfl⟩ | ⟨-, b, -, ⟨-, rfl⟩ | ⟨-, rfl⟩⟩
  · exact hs
  · exact hs
  · exact receivesAwaited_endOfSend _

theorem ReceivesAwaited.rxByte {s t : State} (hs : ReceivesAwaited s) {b : Byte} (h : rxByte cfg b s = .next t) :
    ReceivesAwaited t := by
  rcases rxByte_spec h with ⟨-, rfl⟩ | ⟨-, u, hu, ⟨-, rfl⟩ | ⟨-, rfl⟩⟩
  · exact hs
  · obtain ⟨buf, -, rfl⟩ := storeReceived_spec hu
    exact hs
  · exact receivesAwaited_of_phase_ne (by simp [completeReply_phase])

theorem ReceivesAwaited.rxFault {s : State} (hs : ReceivesAwaited s) : ReceivesAwaited (rxFault s) := by
  rcases rxFault_spec s with ⟨-, h⟩ | ⟨-, h⟩ <;> rw [h]
  · exact hs
  · exact receivesAwaited_of_phase_ne nofun

theorem ReceivesAwaited.tick {s : State} (hs : ReceivesAwaited s) : ReceivesAwaited (tick s) := by
  rcases tick_spec s with ⟨-, h⟩ | ⟨-, -, h⟩ | ⟨-, -, h⟩ <;> rw [h]
  · exact hs
  · exact hs
  · exact receivesAwaited_of_phase_ne nofun

end Sys2Proof.Machine

namespace Sys2Proof

open Machine

/-- Settles O30: `Map` by the class of the identifier and the legality of the operand, and `Accept` performs its action. -/
theorem acceptFollowsMap : Obligations.AcceptFollowsMap := by
  intro c id a s hidle
  refine ⟨?_, fun m => ?_, fun op ack arg wait => ?_, ?_⟩
  · rw [mapCommand_eq_reject_iff, classOfId_eq_reserved]
  · rw [mapCommand_eq_setLocal_iff, classOfId_eq_replyMode_iff, boolArg]
  · simp only [mapCommand_eq_send_iff, classOfId_eq_transmit_iff, expectsReply_eq_decide, frameArg]
  · rw [accept_eq_performAction c id a hidle]
    cases mapCommand c id a s.isReply <;> rfl

/-- Settles O32: bytes 5 and 6 are the operand where the command carries it; where not, both acceptances build the frame
with argument 0. -/
theorem onlyCarriedOperandsReachTheFrame : Obligations.OnlyCarriedOperandsReachTheFrame := by
  intro c cmd a s hidle hlegal
  have hframe : memRead2 (accept c (idOfCmd cmd) a s).txbuf 5 = some (frameArg cmd a) := by
    rw [acceptIn_of_argLegal c hidle hlegal, beginSend_txbuf, build_txbuf, memRead2_buildFn]
  refine ⟨fun hcarries => by rw [hframe, frameArg_of_carries a hcarries], fun hcarries => ⟨?_, fun b => ?_⟩⟩
  · rw [hframe, frameArg_of_not_carries a hcarries]
  · rw [acceptIn_of_argLegal c hidle hlegal, acceptIn_of_argLegal c hidle (argLegal_of_not_carries c b hcarries),
      frameArg_of_not_carries a hcarries, frameArg_of_not_carries b hcarries]
    rfl

/-- Settles O55: of all transfer steps only the end of a send opens a receive window. -/
theorem receivesOnlyWhenAReplyIsExpected : Obligations.ReceivesOnlyWhenAReplyIsExpected := fun _ _ =>
  step_keeps (P := ReceivesAwaited) (fun _ => receivesAwaited_of_phase_ne nofun) (fun _ hs => hs)
    (fun id a _ hs => hs.accept id a) (fun _ _ hs h => hs.txAccept h) (fun _ hs => hs.rxFault)
    (fun _ _ _ hs h => hs.rxByte h) (fun _ hs => hs.tick)

/-- Settles O19: each of the eight is legal with every operand and carries none. -/
theorem argumentlessPlaybackBeginsToSend : Obligations.ArgumentlessPlaybackBeginsToSend := by
  intro a s hidle
  exact ⟨exec_of_argLegal (t := .play) rfl hidle rfl, exec_of_argLegal (t := .next) rfl hidle rfl,
    exec_of_argLegal (t := .previous) rfl hidle rfl, exec_of_argLegal (t := .sleep) rfl hidle rfl,
    exec_of_argLegal (t := .reset) rfl hidle rfl, exec_of_argLegal (t := .pause) rfl hidle rfl,
    exec_of_argLegal (t := .stop) rfl hidle rfl, exec_of_argLegal (t := .randomPlay) rfl hidle rfl⟩

/-- Settles O20: each of the four is legal with every operand and carries it. -/
theorem uncheckedOperandIsSentUnchanged : Obligations.UncheckedOperandIsSentUnchanged := by
  intro a s hidle
  exact ⟨exec_of_argLegal (t := .playIndex) rfl hidle rfl, exec_of_argLegal (t := .singleLoop) rfl hidle rfl,
    exec_of_argLegal (t := .singlePlay) rfl hidle rfl, exec_of_argLegal (t := .dacEnable) rfl hidle rfl⟩

/-- Settles O21: each query is legal with every operand and carries none. -/
theorem queryBeginsToSend : Obligations.QueryBeginsToSend := by
  intro a s hidle
  exact ⟨exec_of_argLegal (t := .getState) rfl hidle rfl, exec_of_argLegal (t := .getVolume) rfl hidle rfl,
    exec_of_argLegal (t := .getUsbCount) rfl hidle rfl, exec_of_argLegal (t := .getSdCount) rfl hidle rfl,
    exec_of_argLegal (t := .getFlashCount) rfl hidle rfl, exec_of_argLegal (t := .getCurUsb) rfl hidle rfl,
    exec_of_argLegal (t := .getCurSd) rfl hidle rfl, exec_of_argLegal (t := .getCurFlash) rfl hidle rfl⟩

/-- Settles O22: the operand is legal exactly up to `VOL_MAX`, which is 30. -/
theorem setVolumeChecksItsOperand : Obligations.SetVolumeChecksItsOperand := by
  intro v s hidle
  exact ⟨fun hle => exec_of_argLegal (t := .setVolume) rfl hidle (decide_eq_true hle),
    fun hlt => exec_of_not_argLegal (t := .setVolume) rfl hidle (decide_eq_false (Nat.not_le_of_lt hlt))⟩

/-- Settles O23: the operand is legal exactly up to 5. -/
theorem setEqChecksItsOperand : Obligations.SetEqChecksItsOperand := by
  intro e s hidle
  exact ⟨fun hle => exec_of_argLegal (t := .setEq) rfl hidle (decide_eq_true hle),
    fun hlt => exec_of_not_argLegal (t := .setEq) rfl hidle (decide_eq_false (Nat.not_le_of_lt hlt))⟩

/-- Settles O24: the operand is legal exactly where `DEV_VALID` holds. -/
theorem setDeviceChecksItsOperand : Obligations.SetDeviceChecksItsOperand := by
  intro d s hidle
  cases hvalid : Config.devValid d with
  | true => exact exec_of_argLegal (t := .setDevice) rfl hidle hvalid
  | false => exact exec_of_not_argLegal (t := .setDevice) rfl hidle hvalid

/-- Settles O25: `Map` decides the local action for identifier 23. -/
theorem setReplyModeIsLocal : Obligations.SetReplyModeIsLocal := by
  intro m s hidle
  have hmap : mapCommand cfg 23 m s.isReply = .setLocal (boolArg m) := mapCommand_eq_setLocal_iff.mpr ⟨rfl, rfl⟩
  have haccept := accept_eq_performAction cfg 23 m hidle
  rw [hmap] at haccept
  exact congrArg Host.Outcome.next haccept

/-- Settles O31: the command is rejected, which leaves the block idle. -/
theorem illegalOperandLeavesNoTrace : Obligations.IllegalOperandLeavesNoTrace := by
  intro c id cmd a s hidle hclass hillegal
  have hrejected := accept_of_not_argLegal c hidle hclass hillegal
  exact ⟨hrejected, by rw [hrejected]; exact decide_eq_true hidle⟩

end Sys2Proof
end
